-- ==== Sys2Proof/Word.lean ====
section
/-! DEFINITION. The word types of the batumi LFO core: the command word and its parts (30_encoding.md R70, R73 to R77) and the
widths of 00_scope.md R6. A bit vector has bit 0 least significant (R7). -/

namespace Sys2Proof

/-- A command word, `CMD_W` = 36 bits (R6, R70). -/
abbrev CommandWord := BitVec 36

/-- A phase, an increment, or a word of the read-data port: 32 bits (`PHASE_W`, R6; R71). -/
abbrev Word32 := BitVec 32

/-- A 16-bit register or immediate: `PITCH_W`, `SAMPLE_W`, `DIV_W`, `LEVEL_W` of R6. -/
abbrev Word16 := BitVec 16

/-- The divided pitch, `DPITCH_W` = 17 bits, signed (R6, R22). -/
abbrev Word17 := BitVec 17

end Sys2Proof
end

