-- ==== Sys2Proof/Config.lean ====
section
/-! DEFINITION. The parameters of the block (00_scope.md R6): the constants of this hardware, and the arguments an instance is
made with, which are the contents of the two read-only lookup tables (by default those of 20_memory.md R52 and R53) and two
build parameters. -/

namespace Sys2Proof

/-- Which phase register the renderer reads (`RENDER_SRC`, R6 and R157). -/
inductive RenderSrc where
  | main
  | divided
deriving DecidableEq, Repr

/-- A pitch ROM: 13 entries of 31 bits, read as unsigned integers (R50). -/
structure PitchRom where
  entries : List (BitVec 31)
  /-- `PROM_N` of R6. -/
  size : entries.length = 13
deriving DecidableEq, Repr

/-- A sine ROM: 257 entries of 16 bits, read as signed integers (R50). -/
structure SineRom where
  entries : List (BitVec 16)
  /-- `SROM_N` of R6. -/
  size : entries.length = 257
deriving DecidableEq, Repr

/-- The ROM contents of the hardware, arguments of the machine (R6). They are configuration and not state: read-only, the same at
every power-on, shared by all instances (R51). -/
structure Roms where
  pitchRom : PitchRom
  sineRom : SineRom
deriving DecidableEq, Repr

/-- The build parameters of one instance that R6 marks "argument", constant for the life of the instance: the renderer's source
(R157) and the trapezoid's shift, legal in 0..15 (R163). -/
structure Build where
  renderSrc : RenderSrc
  trapShift : Fin 16
deriving DecidableEq, Repr

namespace Config

/-- `F_TICK_CAL` of R6, in ticks per second: the tick rate the pitch ROM is calibrated for (R52). The block measures no time, so
no meaning reads it. -/
def fTickCal : Nat := 1000

/-- `N_OSC` of R6: the number of instances. -/
def nOsc : Nat := 1

/-- `SEMITONE` of R6, in pitch units. -/
def semitone : Nat := 128

/-- `OCTAVE` of R6: 12 semitones of `SEMITONE` = 128 pitch units. -/
def octave : Int := 1536

/-- `PITCH_MIN` of R6: codes below it saturate (R101). -/
def pitchMin : Int := -16896

/-- `PITCH_MAX` of R6: codes above it saturate (R101). -/
def pitchMax : Int := 7679

/-- `INC_MIN` of R6. -/
def incMin : Int := 20971

/-- `INC_MAX` of R6. -/
def incMax : Int := 1373786889

/-- `PITCH_1HZ` of R6 and R108. -/
def pitch1Hz : Word16 := BitVec.ofInt 16 (-5102)

/-- `PITCH_10HZ` of R6 and R108. -/
def pitch10Hz : Word16 := 0#16

/-- `PITCH_100HZ` of R6 and R108. -/
def pitch100Hz : Word16 := 5102#16

/-- `DEFAULT_SHAPE` of R6: the selector that replaces an unrecognised one (R81). -/
def defaultSelector : BitVec 3 := 0#3

/-- The thirteen values of R52, in order. -/
def pitchTable : List Nat :=
  [687194767, 728057495, 771350046, 817216907, 865811153, 917294963, 971840160,
   1029628783, 1090853697, 1155719233, 1224441875, 1297250977, 1374389534]

/-- `PitchRom` with the contents of R52 (the default of R6). -/
def pitchRom : PitchRom := { entries := pitchTable.map (BitVec.ofNat 31), size := by rfl }

/-- Entries 0 to 31 of R53. -/
def sinePart0 : List Int :=
  [0, 804, 1608, 2410, 3212, 4011, 4808, 5602,
   6393, 7179, 7962, 8739, 9512, 10278, 11039, 11793,
   12539, 13279, 14010, 14732, 15446, 16151, 16846, 17530,
   18204, 18868, 19519, 20159, 20787, 21403, 22005, 22594]

/-- Entries 32 to 63 of R53. -/
def sinePart1 : List Int :=
  [23170, 23731, 24279, 24811, 25329, 25832, 26319, 26790,
   27245, 27683, 28105, 28510, 28898, 29268, 29621, 29956,
   30273, 30571, 30852, 31113, 31356, 31580, 31785, 31971,
   32137, 32285, 32412, 32521, 32609, 32678, 32728, 32757]

/-- Entries 64 to 95 of R53. -/
def sinePart2 : List Int :=
  [32767, 32757, 32728, 32678, 32609, 32521, 32412, 32285,
   32137, 31971, 31785, 31580, 31356, 31113, 30852, 30571,
   30273, 29956, 29621, 29268, 28898, 28510, 28105, 27683,
   27245, 26790, 26319, 25832, 25329, 24811, 24279, 23731]

/-- Entries 96 to 127 of R53. -/
def sinePart3 : List Int :=
  [23170, 22594, 22005, 21403, 20787, 20159, 19519, 18868,
   18204, 17530, 16846, 16151, 15446, 14732, 14010, 13279,
   12539, 11793, 11039, 10278, 9512, 8739, 7962, 7179,
   6393, 5602, 4808, 4011, 3212, 2410, 1608, 804]

/-- Entries 128 to 159 of R53. -/
def sinePart4 : List Int :=
  [0, -804, -1608, -2410, -3212, -4011, -4808, -5602,
   -6393, -7179, -7962, -8739, -9512, -10278, -11039, -11793,
   -12539, -13279, -14010, -14732, -15446, -16151, -16846, -17530,
   -18204, -18868, -19519, -20159, -20787, -21403, -22005, -22594]

/-- Entries 160 to 191 of R53. -/
def sinePart5 : List Int :=
  [-23170, -23731, -24279, -24811, -25329, -25832, -26319, -26790,
   -27245, -27683, -28105, -28510, -28898, -29268, -29621, -29956,
   -30273, -30571, -30852, -31113, -31356, -31580, -31785, -31971,
   -32137, -32285, -32412, -32521, -32609, -32678, -32728, -32757]

/-- Entries 192 to 223 of R53. -/
def sinePart6 : List Int :=
  [-32767, -32757, -32728, -32678, -32609, -32521, -32412, -32285,
   -32137, -31971, -31785, -31580, -31356, -31113, -30852, -30571,
   -30273, -29956, -29621, -29268, -28898, -28510, -28105, -27683,
   -27245, -26790, -26319, -25832, -25329, -24811, -24279, -23731]

/-- Entries 224 to 255 of R53. -/
def sinePart7 : List Int :=
  [-23170, -22594, -22005, -21403, -20787, -20159, -19519, -18868,
   -18204, -17530, -16846, -16151, -15446, -14732, -14010, -13279,
   -12539, -11793, -11039, -10278, -9512, -8739, -7962, -7179,
   -6393, -5602, -4808, -4011, -3212, -2410, -1608, -804]

/-- The 257 values of R53, in order; the last equals the first. -/
def sineTable : List Int :=
  sinePart0 ++ sinePart1 ++ sinePart2 ++ sinePart3 ++ sinePart4 ++ sinePart5 ++ sinePart6 ++ sinePart7 ++ [0]

/-- `SineRom` with the contents of R53 (the default of R6). -/
def sineRom : SineRom := { entries := sineTable.map (BitVec.ofInt 16), size := by decide +kernel }

/-- The ROM contents of R52 and R53 (the defaults of R6). -/
def defaultRoms : Roms := { pitchRom := pitchRom, sineRom := sineRom }

/-- The defaults of R6: `RENDER_SRC` = `DIVIDED`, `TRAP_SHIFT` = 1. -/
def defaultBuild : Build := { renderSrc := .divided, trapShift := 1 }

end Config

end Sys2Proof
end

