-- ==== Sys2Proof/Syntax.lean ====
section
/-! DEFINITION. The commands (30_encoding.md R72): one constructor per row of the opcode table, with the operand fields of the
formats N, H, W, S and R (R73 to R77). Ignored operand bits are no part of a command (R79). -/

namespace Sys2Proof

/-- The commands of R72. A reserved opcode (R80, R192) is a command of its own here, since the table lists each one. -/
inductive Instr where
  /-- `NOP`, opcode 0x0, format N (R190). -/
  | nop
  /-- `SETPITCH imm16`, opcode 0x1, format H: a signed pitch code (R109). -/
  | setpitch (imm : Word16)
  /-- `SETDIV imm16`, opcode 0x2, format H: an unsigned divider (R124). -/
  | setdiv (imm : Word16)
  /-- `SETLEVEL imm16`, opcode 0x3, format H: an unsigned level (R170). -/
  | setlevel (imm : Word16)
  /-- `SETPHASE imm32`, opcode 0x4, format W: an unsigned phase offset (R139). -/
  | setphase (imm : Word32)
  /-- `RESET`, opcode 0x5, format N (R140). -/
  | reset
  /-- `TICK`, opcode 0x6, format N (R138). -/
  | tick
  /-- `RENDER shape`, opcode 0x7, format S: a shape selector (R169). The decoder gives only 0..4 (R81). -/
  | render (sel : BitVec 3)
  /-- `READ rsel`, opcode 0x8, format R: a register number (R191). -/
  | read (rsel : BitVec 4)
  /-- Reserved opcode 0x9 (R192). -/
  | reserved9
  /-- Reserved opcode 0xA (R192). -/
  | reservedA
  /-- Reserved opcode 0xB (R192). -/
  | reservedB
  /-- Reserved opcode 0xC (R192). -/
  | reservedC
  /-- Reserved opcode 0xD (R192). -/
  | reservedD
  /-- Reserved opcode 0xE (R192). -/
  | reservedE
  /-- Reserved opcode 0xF (R192). -/
  | reservedF
deriving DecidableEq, Repr

/-- The five shapes the renderer draws (R81), in the order of their selector codes 0 to 4. -/
inductive Shape where
  | sine
  | triangle
  | trapezoid
  | ramp
  | saw
deriving DecidableEq, Repr

end Sys2Proof
end

