-- ==== Sys2Proof/WellFormed.lean ====
section
/-! DEFINITION. Which commands the decoder can produce. Every field but one is as wide as its encoding, so the only check is on
the shape selector: the renderer is only ever asked for 0 to 4 (43_renderer.md R158). -/

namespace Sys2Proof

/-- A command as the decoder gives it: a `RENDER` selector is one of the five shapes (R81, R158). -/
def Instr.wellFormed : Instr → Bool
  | .nop => true
  | .setpitch _ => true
  | .setdiv _ => true
  | .setlevel _ => true
  | .setphase _ => true
  | .reset => true
  | .tick => true
  | .render sel => decide (sel.toNat ≤ 4)
  | .read _ => true
  | .reserved9 => true
  | .reservedA => true
  | .reservedB => true
  | .reservedC => true
  | .reservedD => true
  | .reservedE => true
  | .reservedF => true

end Sys2Proof
end

