-- ==== Sys2Proof/Decode.lean ====
section
/-! DEFINITION. The decoder and the encoder of command words (30_encoding.md R70 to R87) and the opcode table as rows of match and
mask (R72). Decoding is total and needs no state: every 36-bit word is some command, so nothing is rejected (R80, R87). -/

namespace Sys2Proof

/-- `cmd[35:32]` (R70). -/
def opcodeField (w : CommandWord) : BitVec 4 := w.extractLsb 35 32

/-- `cmd[31:0]` (R70). -/
def operandField (w : CommandWord) : Word32 := w.extractLsb 31 0

/-- `imm16 = operand[15:0]` of format H (R74). -/
def imm16Field (operand : Word32) : Word16 := operand.extractLsb 15 0

/-- `shape = operand[2:0]` of format S (R76). -/
def shapeField (operand : Word32) : BitVec 3 := operand.extractLsb 2 0

/-- `rsel = operand[3:0]` of format R (R77). -/
def rselField (operand : Word32) : BitVec 4 := operand.extractLsb 3 0

/-- The decoder is the boundary at which an unrecognised selector 5, 6, 7 is replaced by `DEFAULT_SHAPE` (R81, R87). -/
def boundarySelector (sel : BitVec 3) : BitVec 3 :=
  if sel.toNat > 4 then Config.defaultSelector else sel

/-- The decoding procedure of R87, by the four bits of the opcode, most significant first. -/
def decode (w : CommandWord) : Instr :=
  let opcode := opcodeField w
  let operand := operandField w
  match opcode.getLsbD 3, opcode.getLsbD 2, opcode.getLsbD 1, opcode.getLsbD 0 with
  | false, false, false, false => .nop
  | false, false, false, true  => .setpitch (imm16Field operand)
  | false, false, true,  false => .setdiv (imm16Field operand)
  | false, false, true,  true  => .setlevel (imm16Field operand)
  | false, true,  false, false => .setphase operand
  | false, true,  false, true  => .reset
  | false, true,  true,  false => .tick
  | false, true,  true,  true  => .render (boundarySelector (shapeField operand))
  | true,  false, false, false => .read (rselField operand)
  | true,  false, false, true  => .reserved9
  | true,  false, true,  false => .reservedA
  | true,  false, true,  true  => .reservedB
  | true,  true,  false, false => .reservedC
  | true,  true,  false, true  => .reservedD
  | true,  true,  true,  false => .reservedE
  | true,  true,  true,  true  => .reservedF

/-- A command word from its opcode and its operand, `{opcode, operand}` (R70). -/
def assembleWord (opcode : BitVec 4) (operand : Word32) : CommandWord := opcode ++ operand

/-- The canonical word of a command: every ignored bit is 0 (R79, R84). -/
def encode : Instr → CommandWord
  | .nop => assembleWord 0x0#4 0#32
  | .setpitch imm => assembleWord 0x1#4 (imm.zeroExtend 32)
  | .setdiv imm => assembleWord 0x2#4 (imm.zeroExtend 32)
  | .setlevel imm => assembleWord 0x3#4 (imm.zeroExtend 32)
  | .setphase imm => assembleWord 0x4#4 imm
  | .reset => assembleWord 0x5#4 0#32
  | .tick => assembleWord 0x6#4 0#32
  | .render sel => assembleWord 0x7#4 (sel.zeroExtend 32)
  | .read rsel => assembleWord 0x8#4 (rsel.zeroExtend 32)
  | .reserved9 => assembleWord 0x9#4 0#32
  | .reservedA => assembleWord 0xA#4 0#32
  | .reservedB => assembleWord 0xB#4 0#32
  | .reservedC => assembleWord 0xC#4 0#32
  | .reservedD => assembleWord 0xD#4 0#32
  | .reservedE => assembleWord 0xE#4 0#32
  | .reservedF => assembleWord 0xF#4 0#32

/-- The mnemonic of a command, as the opcode table spells it. -/
def Instr.mnemonic : Instr → String
  | .nop => "NOP"
  | .setpitch _ => "SETPITCH"
  | .setdiv _ => "SETDIV"
  | .setlevel _ => "SETLEVEL"
  | .setphase _ => "SETPHASE"
  | .reset => "RESET"
  | .tick => "TICK"
  | .render _ => "RENDER"
  | .read _ => "READ"
  | .reserved9 => "RESERVED_9"
  | .reservedA => "RESERVED_A"
  | .reservedB => "RESERVED_B"
  | .reservedC => "RESERVED_C"
  | .reservedD => "RESERVED_D"
  | .reservedE => "RESERVED_E"
  | .reservedF => "RESERVED_F"

/-- One row of the opcode table: a word is the row's when `word &&& mask` is `pattern` (R72). `used` marks the bits the row's
format reads: the opcode and the operand field; the others are ignored (R73 to R77, R79). -/
structure OpcodeRow where
  mnemonic : String
  pattern : CommandWord
  mask : CommandWord
  used : CommandWord
deriving DecidableEq, Repr

/-- The opcode table of R72, row by row. -/
def opcodeTable : List OpcodeRow :=
  [{ mnemonic := "NOP",        pattern := 0x000000000#36, mask := 0xF00000000#36, used := 0xF00000000#36 },
   { mnemonic := "SETPITCH",   pattern := 0x100000000#36, mask := 0xF00000000#36, used := 0xF0000FFFF#36 },
   { mnemonic := "SETDIV",     pattern := 0x200000000#36, mask := 0xF00000000#36, used := 0xF0000FFFF#36 },
   { mnemonic := "SETLEVEL",   pattern := 0x300000000#36, mask := 0xF00000000#36, used := 0xF0000FFFF#36 },
   { mnemonic := "SETPHASE",   pattern := 0x400000000#36, mask := 0xF00000000#36, used := 0xFFFFFFFFF#36 },
   { mnemonic := "RESET",      pattern := 0x500000000#36, mask := 0xF00000000#36, used := 0xF00000000#36 },
   { mnemonic := "TICK",       pattern := 0x600000000#36, mask := 0xF00000000#36, used := 0xF00000000#36 },
   { mnemonic := "RENDER",     pattern := 0x700000000#36, mask := 0xF00000000#36, used := 0xF00000007#36 },
   { mnemonic := "READ",       pattern := 0x800000000#36, mask := 0xF00000000#36, used := 0xF0000000F#36 },
   { mnemonic := "RESERVED_9", pattern := 0x900000000#36, mask := 0xF00000000#36, used := 0xF00000000#36 },
   { mnemonic := "RESERVED_A", pattern := 0xA00000000#36, mask := 0xF00000000#36, used := 0xF00000000#36 },
   { mnemonic := "RESERVED_B", pattern := 0xB00000000#36, mask := 0xF00000000#36, used := 0xF00000000#36 },
   { mnemonic := "RESERVED_C", pattern := 0xC00000000#36, mask := 0xF00000000#36, used := 0xF00000000#36 },
   { mnemonic := "RESERVED_D", pattern := 0xD00000000#36, mask := 0xF00000000#36, used := 0xF00000000#36 },
   { mnemonic := "RESERVED_E", pattern := 0xE00000000#36, mask := 0xF00000000#36, used := 0xF00000000#36 },
   { mnemonic := "RESERVED_F", pattern := 0xF00000000#36, mask := 0xF00000000#36, used := 0xF00000000#36 }]

/-- A word is a row's (R72). -/
def OpcodeRow.accepts (r : OpcodeRow) (w : CommandWord) : Bool := w &&& r.mask == r.pattern

/-- The command word whose bits are `w`, given in `nbits` bits, bit 0 least significant. The port is 36 wires wide (R71): a
bit above 35 has no wire. DESIGN CHOICE (log entry 8): the block has no byte order (R55). -/
def commandWordOf (nbits w : Nat) : CommandWord := BitVec.ofNat 36 (w % 2 ^ nbits)

/-- The command the decoder reads from the bits `w`; never refused, since the decoder is total (R80). -/
def decodeTableWord (nbits w : Nat) : Option Instr := some (decode (commandWordOf nbits w))

end Sys2Proof
end

