-- ==== Sys2Proof/Machine/Arith.lean ====
section
/-! DEFINITION. The integer operators of 00_scope.md R8 that the library does not name as the spec does. The others are `Int.fdiv`,
`Int.tdiv`, `%` and the exact `+`, `-`, `*` over the unbounded integers. -/

namespace Sys2Proof.Machine

/-- `clamp(v, lo, hi)` of R8. -/
def clamp (v lo hi : Int) : Int := if v < lo then lo else if v > hi then hi else v

/-- `a >> k` of R8: floor division by `2^k`. -/
def shr (a : Int) (k : Nat) : Int := Int.fdiv a (2 ^ k)

/-- `a << k` of R8: exact, no bit is dropped. -/
def shl (a : Int) (k : Nat) : Int := a * 2 ^ k

/-- The loop of `ilog2` (41_divider.md R120): halve `v` until it is 1, counting in `n`, at most `fuel` times. -/
def halvings : (fuel v n : Nat) → Nat
  | 0, _, n => n
  | fuel + 1, v, n => if v > 1 then halvings fuel (v / 2) (n + 1) else n

/-- `ilog2(d)` of R120. The loop runs at most 15 times, the divider having 16 bits (R120, R202). -/
def ilog2 (d : Nat) : Nat := halvings 15 d 0

end Sys2Proof.Machine
end

