-- ==== Sys2Proof/Machine/Rom.lean ====
section
/-! DEFINITION. Reading the two ROMs (20_memory.md R54): by entry, with no side effect. Every index is in range by its type (R56). -/

namespace Sys2Proof.Machine

/-- `PitchRom[i]`, an unsigned integer (R54). -/
def readPitchRom (rom : PitchRom) (i : Fin 13) : Int := (rom.entries[i.val]'(by rw [rom.size]; exact i.isLt)).toNat

/-- `SineRom[i]`, a signed integer (R54). -/
def readSineRom (rom : SineRom) (i : Fin 257) : Int := (rom.entries[i.val]'(by rw [rom.size]; exact i.isLt)).toInt

end Sys2Proof.Machine
end

