-- ==== Sys2Proof/Machine/Increment.lean ====
section
/-! DEFINITION. The Pitch-to-Increment Mapper's function `computeIncrement` (40_mapper.md R100 to R106). It reads the pitch ROM it is
given and nothing else. -/

namespace Sys2Proof.Machine

/-- Step 1, saturation (R101). -/
def saturatePitch (pitch : Int) : Int := clamp pitch Config.pitchMin Config.pitchMax

/-- Step 2, the octave of a saturated pitch (R102). -/
def octaveOf (pc : Int) : Int := Int.fdiv pc Config.octave

/-- Step 2, the position inside the octave, 0..1535 (R102). -/
def fracOf (pc : Int) : Nat := (pc - Config.octave * octaveOf pc).toNat

theorem fracOf_lt (pc : Int) : fracOf pc < 1536 := by
  unfold fracOf octaveOf Config.octave
  rw [Int.fdiv_eq_ediv_of_nonneg _ (by decide)]
  omega

/-- Step 3, the semitone inside the octave, 0..11 (R103). -/
def semitoneOf (pc : Int) : Fin 12 :=
  ⟨fracOf pc / Config.semitone, by have := fracOf_lt pc; unfold Config.semitone; omega⟩

/-- Step 3, the position inside the semitone, 0..127 (R103). -/
def subOf (pc : Int) : Nat := fracOf pc % Config.semitone

/-- Step 4, lookup and linear interpolation: the increment of the top octave (R104). -/
def interpolatePitch (rom : PitchRom) (pc : Int) : Int :=
  let a := readPitchRom rom (semitoneOf pc).castSucc
  let b := readPitchRom rom (semitoneOf pc).succ
  a + shr ((b - a) * subOf pc) 7

/-- `computeIncrement(pitch)` of R106; step 5 is the octave shift by `4 - oct` (R105). -/
def computeIncrement (rom : PitchRom) (pitch : Int) : Int :=
  let pc := saturatePitch pitch
  shr (interpolatePitch rom pc) (4 - octaveOf pc).toNat

end Sys2Proof.Machine
end

