-- ==== Sys2Proof/Machine/State.lean ====
section
/-! DEFINITION. The state of one instance as plain data (10_state.md): its eleven registers (R20), its output ports (30_encoding.md
R71), its build parameters (00_scope.md R6), and the stream of commands with its responses (R34; 70_reset_and_hazards.md R251).
`State.reset` is the state right after power-on (R37). -/

namespace Sys2Proof.Machine

/-- Why the machine stops with a fault. There is no constructor: "The set of exception causes is empty" (60_exceptions.md R200),
every accepted command completes (R202), and no fault is safe or unsafe because none exists (log entry 11). -/
inductive Fault where
deriving DecidableEq, Repr

/-- Why a command has no meaning in the model. Nothing raises a refusal here: every row of the opcode table has its meaning. -/
inductive Refusal where
  /-- Raised by an arm of `exec` for a command not modelled yet; no arm raises it. Safe: the model stops. -/
  | notModelled (mnemonic : String)
deriving DecidableEq, Repr

/-- What a command returns (R71): the sample of a `RENDER` or the data of a `READ`. -/
inductive Response where
  /-- The signed sample of a `RENDER` (R169). -/
  | sample (value : Word16)
  /-- The 32-bit value of a `READ` (R191). -/
  | data (value : Word32)
deriving DecidableEq, Repr

/-- The registers of one instance: the table of R20, "exactly the following state and nothing else". -/
structure Osc where
  /-- The pitch code, signed, as `SETPITCH` supplied it (R21). -/
  pitch : Word16
  /-- The pitch lowered by whole octaves for the divider, signed (R22). -/
  dividedPitch : Word17
  /-- The main phase accumulator (R23). -/
  phase : Word32
  /-- The divided phase accumulator (R24). -/
  dividedPhase : Word32
  /-- The clock-division factor (R25). -/
  divider : Word16
  /-- The position inside the division window, counting up (R26). -/
  dividerCount : Word16
  /-- The amplitude (R27). -/
  level : Word16
  /-- The phase offset added at render time (R28). -/
  initialPhase : Word32
  /-- The addend of each tick, cached (R29). -/
  phaseIncrement : Word32
  /-- `RUN`: false is Idle, true is Running (R30). -/
  run : Bool
  /-- The last rendered sample, signed (R31). -/
  sampleOut : Word16
deriving DecidableEq, Repr

/-- The output ports of R71 that are no view of a register: the read-data port and the two pulses. -/
structure Ports where
  /-- The value returned by the most recent `READ`. -/
  rdata : Word32
  /-- The command executed last was a `RENDER`: `sample` shows its result. -/
  sampleValid : Bool
  /-- The command executed last was a `READ`: `rdata` shows its result. -/
  rdataValid : Bool
deriving DecidableEq, Repr

/-- One instance, its ports, its build parameters and its command stream. The ROM contents are no part of it (R51). -/
structure State where
  /-- The registers (R20). -/
  osc : Osc
  /-- The output ports (R71). -/
  ports : Ports
  /-- The build parameters, constant for the life of the instance (R6, R157, R163; log entry 6). -/
  build : Build
  /-- The command words not accepted yet, the next one first (R34, R251; log entry 3). -/
  pending : List CommandWord
  /-- The index `n` of the next command: how many were accepted (R34; log entry 4). -/
  index : Nat
  /-- The responses so far, in command order (R251; log entry 5). -/
  responses : List Response
deriving DecidableEq, Repr

/-- The registers after power-on: the column "power-on value" of R37. `phaseIncrement` is `computeIncrement(0)` of the pitch ROM,
which is 42949672 for the contents of R52 (R37, "follows from I2"; log entry 7). -/
def Osc.powerOn (rom : PitchRom) : Osc where
  pitch := 0#16
  dividedPitch := 0#17
  phase := 0#32
  dividedPhase := 0#32
  divider := 1#16
  dividerCount := 0#16
  level := 0#16
  initialPhase := 0#32
  phaseIncrement := BitVec.ofInt 32 (computeIncrement rom 0)
  run := false
  sampleOut := 0#16

/-- The ports after power-on. DESIGN CHOICE (log entries 1 and 2): no rule gives `rdata` before the first `READ`. -/
def Ports.powerOn : Ports where
  rdata := 0#32
  sampleValid := false
  rdataValid := false

/-- An instance of the given build over the given ROM contents right after power-on reset (R37, R231), with no command
presented. -/
def State.powerOn (roms : Roms) (b : Build) : State where
  osc := Osc.powerOn roms.pitchRom
  ports := Ports.powerOn
  build := b
  pending := []
  index := 0
  responses := []

/-- The machine right after reset: power-on with the default arguments of R6. -/
def State.reset : State := State.powerOn Config.defaultRoms Config.defaultBuild

end Sys2Proof.Machine
end

