-- ==== Sys2Proof/Machine/Flags.lean ====
section
/-! DEFINITION. The one status flag, `RUN` (10_state.md R30). There are no condition codes, no carry and no overflow flag: a wrap of
a phase register sets nothing (R30; 00_scope.md R10). -/

namespace Sys2Proof.Machine

/-- Idle (`RUN = 0`) or Running (`RUN = 1`), the two observable states of R30. -/
inductive RunState where
  | idle
  | running
deriving DecidableEq, Repr

/-- The state the flag stands for (R30). -/
def Osc.runState (o : Osc) : RunState := if o.run then .running else .idle

/-- `RUN <- 1` (R138). -/
def Osc.setRun (o : Osc) : Osc := { o with run := true }

/-- `RUN <- 0` (R140). -/
def Osc.clearRun (o : Osc) : Osc := { o with run := false }

/-- `STATUS`: bit 0 is `RUN`, bits 31:1 read as 0 (R33). -/
def Osc.statusWord (o : Osc) : Word32 := if o.run then 1#32 else 0#32

end Sys2Proof.Machine
end

