-- ==== Sys2Proof/Machine/Ops.lean ====
section
/-! DEFINITION. The named operations over the state: the output ports (30_encoding.md
R71), giving a response (00_scope.md R9), and accepting the next command (10_state.md R34). There is no operation that takes an
exception or returns from one: the block raises none and has no trap entry and no return (60_exceptions.md R200, R206, R207).
The reads of the two ROMs are in
Machine/Rom.lean; there is no memory write (20_memory.md R50, R54). -/

namespace Sys2Proof.Machine

/-- Change the registers alone. -/
def State.withOsc (s : State) (o : Osc) : State := { s with osc := o }

/-- `respond_sample(v)` (R9): the sample port's pulse, and the response in the run's list (R251). -/
def State.respondSample (s : State) (v : Word16) : State :=
  { s with ports := { s.ports with sampleValid := true }, responses := s.responses ++ [.sample v] }

/-- `respond_data(v)` (R9): the read-data port, its pulse, and the response in the run's list (R251). -/
def State.respondData (s : State) (v : Word32) : State :=
  { s with ports := { s.ports with rdata := v, rdataValid := true }, responses := s.responses ++ [.data v] }

/-- Both pulses are low; `rdata` is held. A pulse lasts for the one command that gave it (R71; log entry 2). -/
def Ports.lower (p : Ports) : Ports := { p with sampleValid := false, rdataValid := false }

/-- The next command is accepted (R71): it leaves the stream, the index advances by exactly 1 (R34), the pulses of the
command before it are over. `rest` is the stream behind it. -/
def State.accept (s : State) (rest : List CommandWord) : State :=
  { s with pending := rest, index := s.index + 1, ports := s.ports.lower }

/-- No command is presented: all state holds (60_exceptions.md R214; R251), the pulses are over (log entry 3). -/
def State.idle (s : State) : State := { s with ports := s.ports.lower }

/-- Present a stream of command words behind those already presented. -/
def State.present (s : State) (ws : List CommandWord) : State := { s with pending := s.pending ++ ws }

/-- The `sample` port: it always shows `sampleOut` (R71). -/
def State.samplePort (s : State) : Word16 := s.osc.sampleOut

/-- The `rdata` port (R71). -/
def State.rdataPort (s : State) : Word32 := s.ports.rdata

/-- The `cmd` port: the word the host presents, if any (R71). -/
def State.cmdPort (s : State) : Option CommandWord := s.pending.head?

/-- The `cmd_valid` port (R71). -/
def State.cmdValid (s : State) : Bool := !s.pending.isEmpty

/-- The `cmd_ready` port at a command boundary: every command has completed, so the next one can be accepted (R71, R231). -/
def State.cmdReady (_ : State) : Bool := true

end Sys2Proof.Machine
end

