-- ==== Sys2Proof/Machine/Accumulator.lean ====
section
/-! DEFINITION. The Phase Accumulator and the commands `TICK`, `SETPHASE` and `RESET` (42_accumulator.md). -/

namespace Sys2Proof.Machine

/-- Main phase: `phase + phaseIncrement (mod 2^32)`, on every tick (R136). -/
def Osc.advancePhase (o : Osc) : Osc := { o with phase := o.phase + o.phaseIncrement }

/-- The tick is a boundary tick: `dividerCount + 1 >= divider`, counted without a wrap (R137). -/
def Osc.atBoundary (o : Osc) : Bool := decide (o.dividerCount.toNat + 1 ≥ o.divider.toNat)

/-- Divider bookkeeping: on a boundary tick the divided phase advances by the same increment and the count returns to 0,
on any other tick the count goes up by 1 (R137). -/
def Osc.advanceDivider (o : Osc) : Osc :=
  if o.atBoundary then
    { o with dividedPhase := o.dividedPhase + o.phaseIncrement, dividerCount := 0#16 }
  else
    { o with dividerCount := BitVec.ofNat 16 (o.dividerCount.toNat + 1) }

/-- One tick (R138). The two halves touch disjoint registers and read none that the other writes, so their order cannot be
seen (R138). -/
def Osc.tick (o : Osc) : Osc := o.advancePhase.advanceDivider.setRun

/-- `TICK` (R138). -/
def execTick (s : State) : Host.Outcome State Fault Refusal := .next (s.withOsc s.osc.tick)

/-- `SETPHASE imm32` (R139): the offset is stored for use at render time only. -/
def execSetphase (imm : Word32) (s : State) : Host.Outcome State Fault Refusal :=
  .next (s.withOsc { s.osc with initialPhase := imm })

/-- The writes of `RESET` (R140): the timing registers alone. -/
def Osc.resetTiming (o : Osc) : Osc :=
  Osc.clearRun { o with phase := 0#32, dividedPhase := 0#32, dividerCount := 0#16 }

/-- `RESET` (R140): return the timing state to Idle. -/
def execReset (s : State) : Host.Outcome State Fault Refusal := .next (s.withOsc s.osc.resetTiming)

end Sys2Proof.Machine
end

