-- ==== Sys2Proof/Machine/Operands.lean ====
section
/-! DEFINITION. How each operand becomes a value (30_encoding.md R78, R81, R82; 41_divider.md R123; 44_system.md R191). -/

namespace Sys2Proof.Machine

/-- `s(imm16)`: two's complement, no scaling, no shift (R78, `SETPITCH`). -/
def signedImm (imm : Word16) : Int := imm.toInt

/-- `u(imm16)`, then 0 is replaced by 1 (R78 and R123, `SETDIV`). -/
def dividerOf (imm : Word16) : Word16 := if imm.toNat = 0 then 1#16 else imm

/-- The shape a selector stands for; 5, 6, 7 are replaced by `DEFAULT_SHAPE` (R81, R169), after which only the codes 0 to 4
are left, 0 being the last pattern here. -/
def shapeOf (sel : BitVec 3) : Shape :=
  match (if sel.toNat > 4 then Config.defaultSelector else sel).toNat with
  | 1 => .triangle
  | 2 => .trapezoid
  | 3 => .ramp
  | 4 => .saw
  | _ => .sine

/-- The 32-bit value of a register by its read-back number (10_state.md R33; R191). Numbers 11 to 15 read 0 (R82). -/
def readRegister (o : Osc) (rsel : BitVec 4) : Word32 :=
  match rsel.toNat with
  | 0 => o.pitch.signExtend 32
  | 1 => o.dividedPitch.signExtend 32
  | 2 => o.phase
  | 3 => o.dividedPhase
  | 4 => o.divider.zeroExtend 32
  | 5 => o.dividerCount.zeroExtend 32
  | 6 => o.level.zeroExtend 32
  | 7 => o.initialPhase
  | 8 => o.phaseIncrement
  | 9 => o.statusWord
  | 10 => o.sampleOut.signExtend 32
  | _ => 0#32

end Sys2Proof.Machine
end

