-- ==== Sys2Proof/Machine/Divider.lean ====
section
/-! DEFINITION. The Clock Divider's configuration half and the `SETDIV` command (41_divider.md). The cadence half is in `TICK`
(42_accumulator.md R137). -/

namespace Sys2Proof.Machine

/-- `dividedPitchOf(p, d) = p - 1536 * ilog2(d)`, from the unsaturated pitch (R121). -/
def dividedPitchOf (p : Int) (d : Nat) : Int := p - Config.octave * ilog2 d

/-- The writes of `SETDIV` (R124): both happen in one step, and `dividerCount` and `dividedPhase` are left alone. -/
def Osc.setDivider (o : Osc) (d : Word16) : Osc :=
  { o with
    divider := d
    dividedPitch := BitVec.ofInt 17 (dividedPitchOf o.pitch.toInt d.toNat) }

/-- `SETDIV imm16` (R124): a divider of 0 is stored as 1 (R123). -/
def execSetdiv (imm : Word16) (s : State) : Host.Outcome State Fault Refusal :=
  .next (s.withOsc (s.osc.setDivider (dividerOf imm)))

end Sys2Proof.Machine
end

