-- ==== Sys2Proof/Machine/Mapper.lean ====
section
/-! DEFINITION. The `SETPITCH` command (40_mapper.md). The pitch ROM is an argument (00_scope.md R6). -/

namespace Sys2Proof.Machine

/-- The writes of `SETPITCH` (R109): all three happen in one step. -/
def Osc.setPitch (o : Osc) (rom : PitchRom) (imm : Word16) : Osc :=
  { o with
    pitch := imm
    dividedPitch := BitVec.ofInt 17 (dividedPitchOf (signedImm imm) o.divider.toNat)
    phaseIncrement := BitVec.ofInt 32 (computeIncrement rom (signedImm imm)) }

/-- `SETPITCH imm16` (R109) over given ROM contents (R6). -/
def execSetpitchWith (roms : Roms) (imm : Word16) (s : State) : Host.Outcome State Fault Refusal :=
  .next (s.withOsc (s.osc.setPitch roms.pitchRom imm))

/-- `SETPITCH imm16` (R109), with the ROM contents of R52 (R6). -/
def execSetpitch (imm : Word16) (s : State) : Host.Outcome State Fault Refusal :=
  execSetpitchWith Config.defaultRoms imm s

end Sys2Proof.Machine
end

