-- ==== Sys2Proof/Machine/Renderer.lean ====
section
/-! DEFINITION. The Waveform Renderer and the commands `RENDER` and `SETLEVEL` (43_renderer.md). The sine ROM and the build
parameters are arguments (00_scope.md R6). -/

namespace Sys2Proof.Machine

/-- Ramp: `p[31:16] - 32768` (R160). -/
def rampWave (p : Word32) : Int := (p.extractLsb 31 16).toNat - 32768

/-- Saw: `32767 - p[31:16]` (R161). -/
def sawWave (p : Word32) : Int := 32767 - (p.extractLsb 31 16).toNat

/-- Triangle: a quarter cycle ahead, fold the second half (R162). -/
def triangleWave (p : Word32) : Int :=
  let q := p + 0x40000000#32
  let h : Nat := (q.extractLsb 30 15).toNat
  let g : Nat := if q.getLsbD 31 then 65535 - h else h
  (g : Int) - 32768

/-- Trapezoid: the triangle times `2^TRAP_SHIFT`, saturated to 16 bits (R163). -/
def trapezoidWave (trapShift : Fin 16) (p : Word32) : Int :=
  clamp (shl (triangleWave p) trapShift) (-32768) 32767

/-- The sine's table index `p[31:24]` (R164). -/
def sineIndex (p : Word32) : Fin 256 := ⟨(p.extractLsb 31 24).toNat, (p.extractLsb 31 24).isLt⟩

/-- The sine's fraction `p[23:8]` (R164). -/
def sineFraction (p : Word32) : Nat := (p.extractLsb 23 8).toNat

/-- Sine: lookup of two neighbours and interpolation, rounding toward minus infinity (R165, R166). -/
def sineWave (rom : SineRom) (p : Word32) : Int :=
  let a := readSineRom rom (sineIndex p).castSucc
  let b := readSineRom rom (sineIndex p).succ
  a + shr ((b - a) * sineFraction p) 16

/-- `waveOf(shape, p)` (R167): one case per shape, over the sine ROM and with the instance's `TRAP_SHIFT` (R163). -/
def waveOf (rom : SineRom) (b : Build) : Shape → Word32 → Int
  | .sine, p => sineWave rom p
  | .triangle, p => triangleWave p
  | .trapezoid, p => trapezoidWave b.trapShift p
  | .ramp, p => rampWave p
  | .saw, p => sawWave p

/-- Level scaling: the exact product divided by 65536, truncated toward zero (R168). -/
def scaleWave (wave : Int) (level : Nat) : Int := Int.tdiv (wave * level) 65536

/-- The phase register that drives the renderer (R157). -/
def Osc.sourcePhase (o : Osc) (src : RenderSrc) : Word32 :=
  match src with
  | .divided => o.dividedPhase
  | .main => o.phase

/-- The effective phase: source phase plus `initialPhase`, modulo 2^32 (R156). -/
def Osc.effectivePhase (o : Osc) (src : RenderSrc) : Word32 := o.sourcePhase src + o.initialPhase

/-- `render(shape)`: a pure function of the phase state, `initialPhase` and `level` (R155, R169). -/
def renderSample (rom : SineRom) (b : Build) (shape : Shape) (o : Osc) : Int :=
  scaleWave (waveOf rom b shape (o.effectivePhase b.renderSrc)) o.level.toNat

/-- `sampleOut <- smp` and `respond_sample(smp)` (R169). -/
def State.showSample (s : State) (smp : Word16) : State :=
  (s.withOsc { s.osc with sampleOut := smp }).respondSample smp

/-- `RENDER shape` (R169) over given ROM contents (R6). -/
def execRenderWith (roms : Roms) (sel : BitVec 3) (s : State) : Host.Outcome State Fault Refusal :=
  .next (s.showSample (BitVec.ofInt 16 (renderSample roms.sineRom s.build (shapeOf sel) s.osc)))

/-- `RENDER shape` (R169), with the ROM contents of R53 (R6). -/
def execRender (sel : BitVec 3) (s : State) : Host.Outcome State Fault Refusal :=
  execRenderWith Config.defaultRoms sel s

/-- `SETLEVEL imm16` (R170). -/
def execSetlevel (imm : Word16) (s : State) : Host.Outcome State Fault Refusal :=
  .next (s.withOsc { s.osc with level := imm })

end Sys2Proof.Machine
end

