-- ==== Sys2Proof/Machine/System.lean ====
section
/-! DEFINITION. The system commands `NOP` and `READ` and the reserved opcodes (44_system.md). There are no other system commands: no
call, no breakpoint, no halt, no privileged command (R193). -/

namespace Sys2Proof.Machine

/-- No state is read or written, no response is given (R190). -/
def State.noOperation (s : State) : State := s

/-- `NOP` (R190). -/
def execNop (s : State) : Host.Outcome State Fault Refusal := .next s.noOperation

/-- `READ rsel` (R191): the selected register's value on the read-data port; no register is written. -/
def execRead (rsel : BitVec 4) (s : State) : Host.Outcome State Fault Refusal :=
  .next (s.respondData (readRegister s.osc rsel))

/-- `RESERVED_9`, opcode 0x9 (R192): accepted, executes as `NOP`. -/
def execReserved9 (s : State) : Host.Outcome State Fault Refusal := .next s.noOperation

/-- `RESERVED_A`, opcode 0xA (R192): accepted, executes as `NOP`. -/
def execReservedA (s : State) : Host.Outcome State Fault Refusal := .next s.noOperation

/-- `RESERVED_B`, opcode 0xB (R192): accepted, executes as `NOP`. -/
def execReservedB (s : State) : Host.Outcome State Fault Refusal := .next s.noOperation

/-- `RESERVED_C`, opcode 0xC (R192): accepted, executes as `NOP`. -/
def execReservedC (s : State) : Host.Outcome State Fault Refusal := .next s.noOperation

/-- `RESERVED_D`, opcode 0xD (R192): accepted, executes as `NOP`. -/
def execReservedD (s : State) : Host.Outcome State Fault Refusal := .next s.noOperation

/-- `RESERVED_E`, opcode 0xE (R192): accepted, executes as `NOP`. -/
def execReservedE (s : State) : Host.Outcome State Fault Refusal := .next s.noOperation

/-- `RESERVED_F`, opcode 0xF (R192): accepted, executes as `NOP`. -/
def execReservedF (s : State) : Host.Outcome State Fault Refusal := .next s.noOperation

end Sys2Proof.Machine
end

