-- ==== Sys2Proof/Machine/Dispatch.lean ====
section
/-! DEFINITION. One arm per command of the opcode table (30_encoding.md R72). -/

namespace Sys2Proof.Machine

/-- Execute one command (00_scope.md R5). -/
def exec (i : Instr) (s : State) : Host.Outcome State Fault Refusal :=
  match i with
  | .nop => Sys2Proof.Machine.execNop s
  | .setpitch imm => Sys2Proof.Machine.execSetpitch imm s
  | .setdiv imm => Sys2Proof.Machine.execSetdiv imm s
  | .setlevel imm => Sys2Proof.Machine.execSetlevel imm s
  | .setphase imm => Sys2Proof.Machine.execSetphase imm s
  | .reset => Sys2Proof.Machine.execReset s
  | .tick => Sys2Proof.Machine.execTick s
  | .render sel => Sys2Proof.Machine.execRender sel s
  | .read rsel => Sys2Proof.Machine.execRead rsel s
  | .reserved9 => Sys2Proof.Machine.execReserved9 s
  | .reservedA => Sys2Proof.Machine.execReservedA s
  | .reservedB => Sys2Proof.Machine.execReservedB s
  | .reservedC => Sys2Proof.Machine.execReservedC s
  | .reservedD => Sys2Proof.Machine.execReservedD s
  | .reservedE => Sys2Proof.Machine.execReservedE s
  | .reservedF => Sys2Proof.Machine.execReservedF s

end Sys2Proof.Machine
end

