-- ==== Sys2Proof/Machine/Step.lean ====
section
/-! DEFINITION. One step of the machine: one accepted command, executed completely before the next is accepted (00_scope.md R5;
30_encoding.md R71). There is no fetch from memory and no program counter: commands arrive on the command port (10_state.md R34). -/

namespace Sys2Proof.Machine

/-- Accept the next command word, decode it and execute it; with none presented, hold all state (70_reset_and_hazards.md R251). -/
def step (s : State) : Host.Outcome State Fault Refusal :=
  match s.pending with
  | [] => .next s.idle
  | w :: rest => exec (decode w) (s.accept rest)

/-- The state with the command word whose bits are `w` presented first on the command port, so that the next step runs it.
Nothing else changes; a program comes to run by being presented so, from outside the block (log entry 3). -/
def State.withFetchWord (s : State) (nbits w : Nat) : State :=
  { s with pending := commandWordOf nbits w :: s.pending }

end Sys2Proof.Machine
end

