-- ==== Sys2Proof/Machine/Assembler.lean ====
section
/-! DEFINITION. The assembler of the spec's programs: its syntax (30_encoding.md R84) and its pseudo-instructions (R85). It stands
outside the block, which sees only the words it emits. Texts are lists of characters. DESIGN CHOICE (log entry 13) where the
grammar of R84 does not say how tokens are separated or how many hexadecimal digits stand. -/

namespace Sys2Proof.Machine

/-- What one line can ask for: a command, a word, or a pseudo-instruction. -/
inductive AsmStatement where
  /-- A command of R84. -/
  | command (i : Instr)
  /-- `.word uint36`: the argument unchanged. -/
  | word (w : CommandWord)
  /-- `STEP s`. -/
  | step (sel : BitVec 3)
  /-- `STEPN n, s`. -/
  | stepN (n : Nat) (sel : BitVec 3)
  /-- `TICKN n`. -/
  | tickN (n : Nat)
  /-- `SETFREQ10`. -/
  | setFreq10
  /-- `SETFREQ1`. -/
  | setFreq1
  /-- `SETFREQ100`. -/
  | setFreq100
deriving DecidableEq, Repr

/-- The words of `STEP s`: `TICK` then `RENDER s` (R85). -/
def stepWords (sel : BitVec 3) : List CommandWord := [encode .tick, encode (.render sel)]

/-- The words a statement is expanded to (R84, R85). -/
def AsmStatement.words : AsmStatement → List CommandWord
  | .command i => [encode i]
  | .word w => [w]
  | .step sel => stepWords sel
  | .stepN n sel => (List.replicate n (stepWords sel)).flatten
  | .tickN n => List.replicate n (encode .tick)
  | .setFreq10 => [encode (.setpitch Config.pitch10Hz)]
  | .setFreq1 => [encode (.setpitch Config.pitch1Hz)]
  | .setFreq100 => [encode (.setpitch Config.pitch100Hz)]

/-- The value of a decimal digit. -/
def decimalDigit (c : Char) : Option Nat :=
  if 48 ≤ c.toNat ∧ c.toNat ≤ 57 then some (c.toNat - 48) else none

/-- The value of a hexadecimal digit, upper or lower case. -/
def hexDigit (c : Char) : Option Nat :=
  if 48 ≤ c.toNat ∧ c.toNat ≤ 57 then some (c.toNat - 48)
  else if 65 ≤ c.toNat ∧ c.toNat ≤ 70 then some (c.toNat - 55)
  else if 97 ≤ c.toNat ∧ c.toNat ≤ 102 then some (c.toNat - 87)
  else none

/-- Digits of a base, most significant first, behind those already read into `acc`. -/
def digits (base : Nat) (digit : Char → Option Nat) : List Char → Nat → Option Nat
  | [], acc => some acc
  | c :: cs, acc =>
    match digit c with
    | some d => digits base digit cs (acc * base + d)
    | none => none

/-- A decimal literal of at least one digit. -/
def decimal : List Char → Option Nat
  | [] => none
  | cs => digits 10 decimalDigit cs 0

/-- A literal `0x…` of at least one digit. -/
def hexadecimal : List Char → Option Nat
  | '0' :: 'x' :: c :: cs => digits 16 hexDigit (c :: cs) 0
  | _ => none

/-- `v` if it is at most `top`. -/
def atMost (top : Nat) (v : Option Nat) : Option Nat := v.filter (· ≤ top)

/-- `uint16`, `uint32` and their like: decimal or hexadecimal, at most `top` (R84). -/
def unsignedLiteral (top : Nat) (tok : List Char) : Option Nat :=
  match atMost top (hexadecimal tok) with
  | some v => some v
  | none => atMost top (decimal tok)

/-- `int16` as its 16-bit pattern: decimal -32768..32767 or the pattern in hexadecimal (R84). -/
def int16Literal : List Char → Option Word16
  | '-' :: cs => (atMost 32768 (decimal cs)).map fun v => BitVec.ofInt 16 (-v)
  | tok =>
    match atMost 0xFFFF (hexadecimal tok) with
    | some v => some (BitVec.ofNat 16 v)
    | none => (atMost 32767 (decimal tok)).map (BitVec.ofNat 16)

/-- The entry of a list of names. -/
def named {α : Type} (names : List (String × α)) (tok : List Char) : Option α :=
  (names.find? fun p => p.1.toList == tok).map (·.2)

/-- The names of the shapes (R81, R84). -/
def shapeNames : List (String × BitVec 3) :=
  [("SINE", 0#3), ("TRI", 1#3), ("TRAP", 2#3), ("RAMP", 3#3), ("SAW", 4#3)]

/-- The names of the registers (R33, R84). -/
def registerNames : List (String × BitVec 4) :=
  [("PITCH", 0#4), ("DIVPITCH", 1#4), ("PHASE", 2#4), ("DIVPHASE", 3#4), ("DIVIDER", 4#4), ("DIVCOUNT", 5#4),
   ("LEVEL", 6#4), ("INITPHASE", 7#4), ("PHASEINC", 8#4), ("STATUS", 9#4), ("SAMPLE", 10#4)]

/-- The names of the three anchors (R84). -/
def anchorNames : List (String × Word16) :=
  [("PITCH_1HZ", Config.pitch1Hz), ("PITCH_10HZ", Config.pitch10Hz), ("PITCH_100HZ", Config.pitch100Hz)]

/-- `shape` of R84: a name or `0`..`7`. -/
def shapeToken (tok : List Char) : Option (BitVec 3) :=
  (named shapeNames tok).or ((atMost 7 (decimal tok)).map (BitVec.ofNat 3))

/-- `reg` of R84: a name or `0`..`15`. -/
def registerToken (tok : List Char) : Option (BitVec 4) :=
  (named registerNames tok).or ((atMost 15 (decimal tok)).map (BitVec.ofNat 4))

/-- The operand of `SETPITCH`: an `int16` or an anchor's name (R84). DESIGN CHOICE (log entry 13): R84 does not say in which
operand positions the names of the anchors may be written; here they are read as the operand of `SETPITCH` alone. -/
def pitchToken (tok : List Char) : Option Word16 := (named anchorNames tok).or (int16Literal tok)

/-- A count with the comma of `STEPN n, s` behind it (R85). -/
def countWithComma (tok : List Char) : Option Nat :=
  match tok.reverse with
  | ',' :: cs => decimal cs.reverse
  | _ => none

/-- The line without its comment (R84). -/
def withoutComment (line : List Char) : List Char := line.takeWhile (· != ';')

/-- The tokens of a line, separated by spaces; `tok` is the one being read, its last character first. -/
def tokens : List Char → (tok : List Char) → List (List Char)
  | [], [] => []
  | [], tok => [tok.reverse]
  | c :: cs, tok =>
    if c == ' ' then
      match tok with
      | [] => tokens cs []
      | _ => tok.reverse :: tokens cs []
    else tokens cs (c :: tok)

/-- A mnemonic without an operand (R84, R85). -/
def bareStatements : List (String × AsmStatement) :=
  [("NOP", .command .nop), ("RESET", .command .reset), ("TICK", .command .tick),
   ("SETFREQ10", .setFreq10), ("SETFREQ1", .setFreq1), ("SETFREQ100", .setFreq100)]

/-- A mnemonic with one operand (R84, R85). -/
def unaryStatements : List (String × (List Char → Option AsmStatement)) :=
  [("SETPITCH", fun t => (pitchToken t).map fun v => .command (.setpitch v)),
   ("SETDIV", fun t => (unsignedLiteral 0xFFFF t).map fun v => .command (.setdiv (BitVec.ofNat 16 v))),
   ("SETLEVEL", fun t => (unsignedLiteral 0xFFFF t).map fun v => .command (.setlevel (BitVec.ofNat 16 v))),
   ("SETPHASE", fun t => (unsignedLiteral 0xFFFFFFFF t).map fun v => .command (.setphase (BitVec.ofNat 32 v))),
   ("RENDER", fun t => (shapeToken t).map fun v => .command (.render v)),
   ("READ", fun t => (registerToken t).map fun v => .command (.read v)),
   (".word", fun t => (atMost 0xFFFFFFFFF (hexadecimal t)).map fun v => .word (BitVec.ofNat 36 v)),
   ("STEP", fun t => (shapeToken t).map .step),
   ("TICKN", fun t => (decimal t).map .tickN)]

/-- The statement of a line's tokens; none where the line is none of the grammar's. -/
def statementOf : List (List Char) → Option AsmStatement
  | [m] => named bareStatements m
  | [m, t] => (named unaryStatements m).bind (· t)
  | [m, n, t] =>
    if m == "STEPN".toList then
      match countWithComma n, shapeToken t with
      | some k, some sel => some (.stepN k sel)
      | _, _ => none
    else none
  | _ => none

/-- The words of one line of source; a line may be empty or hold a comment alone (R84). -/
def assembleLine (line : List Char) : Option (List CommandWord) :=
  match tokens (withoutComment line) [] with
  | [] => some []
  | toks => (statementOf toks).map AsmStatement.words

/-- The words of a program, one command per line (R84). -/
def assemble : List (List Char) → Option (List CommandWord)
  | [] => some []
  | line :: lines =>
    match assembleLine line, assemble lines with
    | some ws, some rest => some (ws ++ rest)
    | _, _ => none

end Sys2Proof.Machine
end

