-- ==== Sys2Proof/Machine/Configured.lean ====
section
/-! DEFINITION. The machine over given ROM contents: `PitchRom` and `SineRom` are its arguments (00_scope.md R6) and its configuration,
not its state (20_memory.md R51). `exec` and `step`, whose form the host fixes, are this machine over the default contents. -/

namespace Sys2Proof.Machine

/-- The meaning of each command over given ROM contents. `SETPITCH` reads the pitch ROM, `RENDER` the sine ROM, and no other command
reads either (20_memory.md R54). -/
def execWith (roms : Roms) (i : Instr) (s : State) : Host.Outcome State Fault Refusal :=
  match i with
  | .nop => execNop s
  | .setpitch imm => execSetpitchWith roms imm s
  | .setdiv imm => execSetdiv imm s
  | .setlevel imm => execSetlevel imm s
  | .setphase imm => execSetphase imm s
  | .reset => execReset s
  | .tick => execTick s
  | .render sel => execRenderWith roms sel s
  | .read rsel => execRead rsel s
  | .reserved9 => execReserved9 s
  | .reservedA => execReservedA s
  | .reservedB => execReservedB s
  | .reservedC => execReservedC s
  | .reservedD => execReservedD s
  | .reservedE => execReservedE s
  | .reservedF => execReservedF s

/-- One step over given ROM contents: accept the next command word, decode it and execute it; with none presented, hold all state
(70_reset_and_hazards.md R251). -/
def stepWith (roms : Roms) (s : State) : Host.Outcome State Fault Refusal :=
  match s.pending with
  | [] => .next s.idle
  | w :: rest => execWith roms (decode w) (s.accept rest)

/-- The machine of a hardware with given ROM contents and an instance with given build parameters: the four arguments of R6. -/
def coreWith (roms : Roms) (b : Build) : Host.Core where
  State := State
  Fault := Fault
  Refusal := Refusal
  step := stepWith roms
  reset := State.powerOn roms b

end Sys2Proof.Machine
end

