-- ==== Sys2Proof/Machine/Bank.lean ====
section
/-! DEFINITION. Several instances, one per physical output (60_exceptions.md R212): the product of independent copies of the model of
one. `N_OSC` is 1 in this spec (00_scope.md R6); the copies share only the two read-only ROMs (10_state.md R39; 20_memory.md R65). -/

namespace Sys2Proof.Machine

/-- The instances of a module, by position; an instance has no identifier inside the block (R212). -/
abbrev Bank := List State

/-- `N_OSC` instances of one build right after power-on: each starts independently in the state of R37 (R212). -/
def Bank.powerOn (nOsc : Nat) (roms : Roms) (b : Build) : Bank := List.replicate nOsc (State.powerOn roms b)

/-- The instances of this hardware right after power-on: `N_OSC` of R6. -/
def Bank.reset : Bank := Bank.powerOn Config.nOsc Config.defaultRoms Config.defaultBuild

/-- One step of the instance at position `k` over the ROMs that all instances share (20_memory.md R65); a position with no instance
changes nothing (log entry 12). -/
def Bank.stepAt (roms : Roms) (bank : Bank) (k : Nat) : Host.Outcome Bank Fault Refusal :=
  match bank[k]? with
  | none => .next bank
  | some s =>
    match stepWith roms s with
    | .next t => .next (bank.set k t)
    | .fault r => .fault r
    | .refused r => .refused r

end Sys2Proof.Machine
end

