-- ==== Sys2Proof/Machine/Streams.lean ====
section
/-! DEFINITION. Runs of a finite command stream (70_reset_and_hazards.md R251) and the merging of the host's two contexts into one
stream (R240; 60_exceptions.md R205). The merge order is a free input, a schedule. -/

namespace Sys2Proof.Machine

/-- A run: the execution of a finite list of command words from a launch state, over given ROM contents. Its result is the final
state, whose `responses` end with the responses of the run in command order (R251). A run uses the machine's step alone, so the build
parameters are those the launch state carries. -/
def runStream (roms : Roms) (ws : List CommandWord) (s : State) : Host.Outcome State Fault Refusal :=
  Host.Core.run (coreWith roms Config.defaultBuild) ws.length { s with pending := ws }

/-- The two contexts of the host that issue commands (00_scope.md R5). -/
inductive Context where
  /-- The periodic context: `TICK` and `RENDER`. -/
  | tick
  /-- The mainline context: the setters and `RESET`. -/
  | config
deriving DecidableEq, Repr

/-- The stream the block sees under a schedule, which says for each place whose command stands there; none where the schedule
does not fit the two sequences. Each context's own order is kept (R240). -/
def mergeStreams {α : Type} : List Context → List α → List α → Option (List α)
  | [], [], [] => some []
  | .tick :: schedule, x :: xs, ys => (mergeStreams schedule xs ys).map (x :: ·)
  | .config :: schedule, xs, y :: ys => (mergeStreams schedule xs ys).map (y :: ·)
  | _, _, _ => none

/-- The result of the two contexts under a schedule: a run of the merged stream (R240). -/
def runMerged (roms : Roms) (schedule : List Context) (ticks configs : List CommandWord) (s : State) :
    Option (Host.Outcome State Fault Refusal) :=
  (mergeStreams schedule ticks configs).map (runStream roms · s)

end Sys2Proof.Machine
end

