-- ==== Sys2Proof/Safety.lean ====
section
/-! DEFINITION. What counts as a safe run: the invariants of 10_state.md R32, which hold after power-on reset and after every command,
and the agreement of the output ports with the responses given (30_encoding.md R71). -/

namespace Sys2Proof.Machine

/-- The invariants I1, I2, I3, I5 (its first half), I6, I7 (its range) and I8 of R32, over a given pitch ROM.
I4 holds by the widths of the registers. -/
structure Osc.Inv (o : Osc) (rom : PitchRom) : Prop where
  /-- I1: `1 <= divider`. -/
  divider_pos : 1 ≤ o.divider.toNat
  /-- I2: `phaseIncrement = computeIncrement(pitch)`. -/
  increment_cached : (o.phaseIncrement.toNat : Int) = computeIncrement rom o.pitch.toInt
  /-- I3: `dividedPitch = pitch - 1536 * ilog2(divider)`. -/
  dividedPitch_cached : o.dividedPitch.toInt = dividedPitchOf o.pitch.toInt o.divider.toNat
  /-- I5: `dividerCount <= 65534`. -/
  count_le : o.dividerCount.toNat ≤ 65534
  /-- I6: `RUN = 0` implies that the timing registers are 0. -/
  idle_zero : o.run = false → o.phase = 0#32 ∧ o.dividedPhase = 0#32 ∧ o.dividerCount = 0#16
  /-- I7: `INC_MIN <= phaseIncrement <= INC_MAX`, the bounds of the contents of R52 (R6). -/
  increment_range : rom = Config.pitchRom → Config.incMin ≤ o.phaseIncrement.toNat ∧ (o.phaseIncrement.toNat : Int) ≤ Config.incMax
  /-- I8: `-32767 <= sampleOut <= 32766`. -/
  sample_range : -32767 ≤ o.sampleOut.toInt ∧ o.sampleOut.toInt ≤ 32766

/-- I5, second half: the count is inside the window; a `SETDIV` that lowers the divider can break it until the next tick. -/
def Osc.countInWindow (o : Osc) : Prop := o.dividerCount.toNat < o.divider.toNat

/-- The invariants of R32 of a state's registers, over given ROM contents. -/
def State.InvOver (s : State) (roms : Roms) : Prop := s.osc.Inv roms.pitchRom

/-- The invariants of R32 of a state's registers, over the ROM contents of R52 and R53. -/
def State.Inv (s : State) : Prop := s.InvOver Config.defaultRoms

/-- The most recent sample among the responses. -/
def lastSample : List Response → Option Word16
  | [] => none
  | .sample v :: rs => (lastSample rs).or (some v)
  | .data _ :: rs => lastSample rs

/-- The most recent data among the responses. -/
def lastData : List Response → Option Word32
  | [] => none
  | .sample _ :: rs => lastData rs
  | .data v :: rs => (lastData rs).or (some v)

/-- The ports show the most recent responses (R71): `sample` the last `RENDER`'s and `rdata` the last `READ`'s; before the
first of each, the power-on value. -/
def State.portsAgree (s : State) : Prop :=
  s.samplePort = (lastSample s.responses).getD 0#16 ∧ s.rdataPort = (lastData s.responses).getD 0#32

/-- The samples among the responses, in order. -/
def samplesOf (rs : List Response) : List Word16 :=
  rs.filterMap fun r =>
    match r with
    | .sample v => some v
    | .data _ => none

/-- How many words of a stream are `TICK`s (42_accumulator.md R141). -/
def countTicks (ws : List CommandWord) : Nat := ws.countP fun w => decode w == .tick

/-- The command gives a response: it is a `RENDER` or a `READ` (R71). -/
def givesResponse : Instr → Bool
  | .render _ => true
  | .read _ => true
  | _ => false

/-- What a response is the answer to: a `RENDER` or a `READ` (R71). -/
inductive ResponseKind where
  | sample
  | data
deriving DecidableEq, Repr

/-- The kind of a response. -/
def kindOf : Response → ResponseKind
  | .sample _ => .sample
  | .data _ => .data

/-- The kind of the response a command gives, if it gives one (R71): a `RENDER` its sample, a `READ` its data. -/
def responseKind : Instr → Option ResponseKind
  | .render _ => some .sample
  | .read _ => some .data
  | _ => none

/-- The command is a `SETDIV` (41_divider.md R124). -/
def isSetdiv : Instr → Bool
  | .setdiv _ => true
  | _ => false

/-- The command is a `SETPITCH` (40_mapper.md R109). -/
def isSetpitch : Instr → Bool
  | .setpitch _ => true
  | _ => false

/-- The command can change what a `RENDER` returns: it is a `SETLEVEL`, a `SETPHASE`, a `RESET` or a `TICK`
(70_reset_and_hazards.md R243). -/
def disturbsRender : Instr → Bool
  | .setlevel _ => true
  | .setphase _ => true
  | .reset => true
  | .tick => true
  | _ => false

/-- The command does nothing: `NOP` or a reserved opcode (44_system.md R190, R192). -/
def isNoOperation : Instr → Bool
  | .nop => true
  | .reserved9 => true
  | .reservedA => true
  | .reservedB => true
  | .reservedC => true
  | .reservedD => true
  | .reservedE => true
  | .reservedF => true
  | _ => false

/-- A state from which every run of every stream completes: it never stops with a fault or a refusal (60_exceptions.md R200,
R202). -/
def State.safe (s : State) (roms : Roms) : Prop := ∀ ws : List CommandWord, ∃ t : State, runStream roms ws s = .next t

end Sys2Proof.Machine
end

