-- ==== Sys2Proof/Certificates/Slice0/Obligations.lean ====
section
/-! DEFINITION. The statements for the provers, from the numbered rules of spec/. Each names its rule; where a statement rests on a
choice of the model, its docstring names the log entry. -/

open Sys2Proof Sys2Proof.Machine Host

/-- Decoding the encoded word of any well-formed command gives the command back. (30_encoding.md R70, R72, R78, R87,
43_renderer.md R158) -/
def Obligations.DecodeUndoesEncode : Prop :=
  ∀ i : Instr, i.wellFormed = true → decode (encode i) = i

/-- The decoder gives a well-formed command for every word, and is the identity on selectors 0 to 4. (30_encoding.md
R81, 43_renderer.md R158) -/
def Obligations.DecodedCommandsAreWellFormed : Prop :=
  ∀ w : CommandWord, (decode w).wellFormed = true ∧
    (w.toNat / 2 ^ 32 = 7 → w.toNat % 8 ≤ 4 → decode w = .render (BitVec.ofNat 3 w.toNat)) ∧
    (w.toNat / 2 ^ 32 = 7 → 4 < w.toNat % 8 → decode w = .render 0#3)

/-- Two words of one row that differ only in ignored bits are the same command and step alike. (R79) -/
def Obligations.IgnoredBitsHaveNoEffect : Prop :=
  ∀ r ∈ opcodeTable, ∀ v w : CommandWord, r.accepts v = true → v &&& r.used = w &&& r.used →
    decode v = decode w ∧
      ∀ (s : State) (rest : List CommandWord),
        step { s with pending := v :: rest } = step { s with pending := w :: rest } ∧
          ∀ roms : Roms, stepWith roms { s with pending := v :: rest } = stepWith roms { s with pending := w :: rest }

/-- Exactly one row of the opcode table accepts each word, the row of the command it decodes to. (30_encoding.md R72,
R80, R87) -/
def Obligations.EveryWordHasExactlyOneRow : Prop :=
  ∀ w : CommandWord, (opcodeTable.filter fun r => r.accepts w).map (·.mnemonic) = [(decode w).mnemonic]

/-- Words written out from the encodings decode to the commands they stand for. (30_encoding.md R87 (worked examples),
95_test_vectors.md section 2.1) -/
def Obligations.SampleWordsDecodeAsWritten : Prop :=
  decode 0x10000EC12#36 = .setpitch (BitVec.ofInt 16 (-5102)) ∧ decode 0x1FFFF13EE#36 = .setpitch 5102#16 ∧
    decode 0x2ABCD0003#36 = .setdiv 3#16 ∧ decode 0x30000FFFF#36 = .setlevel 65535#16 ∧
    decode 0x4C0000000#36 = .setphase 0xC0000000#32 ∧ decode 0x500000000#36 = .reset ∧
    decode 0x600000000#36 = .tick ∧ decode 0x700000006#36 = .render 0#3 ∧ decode 0x7FFFFFFF9#36 = .render 1#3 ∧
    decode 0x8000000F2#36 = .read 2#4 ∧ decode 0x0DEADBEEF#36 = .nop ∧ decode 0xC12345678#36 = .reservedC

/-- The canonical word of each command is its opcode times 2^32 plus its operand. (30_encoding.md R70, R84) -/
def Obligations.CanonicalWordsAreTheOpcodeAndTheOperand : Prop :=
  (encode .nop).toNat = 0x000000000 ∧ (encode .reset).toNat = 0x500000000 ∧ (encode .tick).toNat = 0x600000000 ∧
    (∀ imm : Word16, ((encode (.setpitch imm)).toNat : Int) = 0x100000000 + imm.toInt % 65536 ∧
      (encode (.setdiv imm)).toNat = 0x200000000 + imm.toNat ∧
      (encode (.setlevel imm)).toNat = 0x300000000 + imm.toNat) ∧
    (∀ imm : Word32, (encode (.setphase imm)).toNat = 0x400000000 + imm.toNat) ∧
    (∀ sel : BitVec 3, (encode (.render sel)).toNat = 0x700000000 + sel.toNat) ∧
    (∀ rsel : BitVec 4, (encode (.read rsel)).toNat = 0x800000000 + rsel.toNat)

/-- Power-on puts every register at its value of R37, and RESET does to each what R37 says. (R37) -/
def Obligations.PowerOnAndResetColumns : Prop :=
  (∀ b : Build, State.reset.osc = (State.powerOn Config.defaultRoms b).osc ∧
    (State.powerOn Config.defaultRoms b).osc =
      { pitch := 0#16, dividedPitch := 0#17, phase := 0#32, dividedPhase := 0#32, divider := 1#16,
        dividerCount := 0#16, level := 0#16, initialPhase := 0#32, phaseIncrement := 0x028F5C28#32,
        run := false, sampleOut := 0#16 }) ∧
    (computeIncrement Config.pitchRom 0 = 42949672) ∧
    ∀ s : State, exec .reset s = .next { s with osc := { s.osc with
      phase := 0#32, dividedPhase := 0#32, dividerCount := 0#16, run := false } }

/-- The reserved opcodes 0x9 to 0xF change nothing and give no response, whatever the operand. (R192) -/
def Obligations.ReservedOpcodesExecuteAsNop : Prop :=
  (∀ s : State, exec .reserved9 s = .next s ∧ exec .reservedA s = .next s ∧ exec .reservedB s = .next s ∧
    exec .reservedC s = .next s ∧ exec .reservedD s = .next s ∧ exec .reservedE s = .next s ∧
    exec .reservedF s = .next s) ∧
    ∀ (s : State) (w : CommandWord) (rest : List CommandWord), 9 ≤ w.toNat / 2 ^ 32 → s.pending = w :: rest →
      step s = step { s with pending := 0x000000000#36 :: rest } ∧
      (∀ roms : Roms, stepWith roms s = stepWith roms { s with pending := 0x000000000#36 :: rest }) ∧
      ∃ t : State, step s = .next t ∧ t.osc = s.osc ∧ t.build = s.build ∧ t.rdataPort = s.rdataPort ∧
        t.responses = s.responses ∧ t.pending = rest ∧ t.index = s.index + 1

/-- SETPITCH writes pitch, dividedPitch and phaseIncrement in one step and nothing else. (R109) -/
def Obligations.SetpitchWritesPitchAndWhatDependsOnIt : Prop :=
  (∀ w : CommandWord, w.toNat / 2 ^ 32 = 1 → decode w = .setpitch (BitVec.ofNat 16 w.toNat)) ∧
    (∀ (s : State) (imm : Word16), ∃ t : State, exec (.setpitch imm) s = .next t ∧
      t.osc.pitch.toInt = imm.toInt ∧
      t.osc.dividedPitch.toInt = imm.toInt - 1536 * (Nat.log2 s.osc.divider.toNat : Int) ∧
      (t.osc.phaseIncrement.toNat : Int) = computeIncrement Config.pitchRom imm.toInt ∧
      t = { s with osc := { s.osc with
        pitch := t.osc.pitch, dividedPitch := t.osc.dividedPitch, phaseIncrement := t.osc.phaseIncrement } }) ∧
    ∀ (roms : Roms) (s : State) (imm : Word16), ∃ t : State, execWith roms (.setpitch imm) s = .next t ∧
      t.osc.pitch.toInt = imm.toInt ∧
      t.osc.dividedPitch.toInt = imm.toInt - 1536 * (Nat.log2 s.osc.divider.toNat : Int) ∧
      (t.osc.phaseIncrement.toNat : Int) = computeIncrement roms.pitchRom imm.toInt ∧
      t = { s with osc := { s.osc with
        pitch := t.osc.pitch, dividedPitch := t.osc.dividedPitch, phaseIncrement := t.osc.phaseIncrement } }

/-- SETDIV writes divider (0 as 1) and dividedPitch in one step and nothing else. (R123, R124) -/
def Obligations.SetdivWritesDividerAndDividedPitch : Prop :=
  (∀ w : CommandWord, w.toNat / 2 ^ 32 = 2 → decode w = .setdiv (BitVec.ofNat 16 w.toNat)) ∧
    ∀ (s : State) (imm : Word16), ∃ t : State, exec (.setdiv imm) s = .next t ∧
      t.osc.divider.toNat = max imm.toNat 1 ∧
      t.osc.dividedPitch.toInt = s.osc.pitch.toInt - 1536 * (Nat.log2 (max imm.toNat 1) : Int) ∧
      t = { s with osc := { s.osc with divider := t.osc.divider, dividedPitch := t.osc.dividedPitch } }

/-- SETLEVEL writes level and nothing else; at level 0 every sample is 0. (R170) -/
def Obligations.SetlevelWritesLevelAlone : Prop :=
  (∀ w : CommandWord, w.toNat / 2 ^ 32 = 3 → decode w = .setlevel (BitVec.ofNat 16 w.toNat)) ∧
    (∀ (s : State) (imm : Word16),
      exec (.setlevel imm) s = .next { s with osc := { s.osc with level := imm } }) ∧
    ∀ (s : State) (sel : BitVec 3), s.osc.level = 0#16 →
      (∃ t : State, exec (.render sel) s = .next t ∧ t.osc.sampleOut = 0#16) ∧
      ∀ roms : Roms, ∃ t : State, execWith roms (.render sel) s = .next t ∧ t.osc.sampleOut = 0#16

/-- SETPHASE stores initialPhase and nothing else. (R139) -/
def Obligations.SetphaseWritesInitialPhaseAlone : Prop :=
  (∀ w : CommandWord, w.toNat / 2 ^ 32 = 4 → decode w = .setphase (BitVec.ofNat 32 w.toNat)) ∧
    ∀ (s : State) (imm : Word32),
      exec (.setphase imm) s = .next { s with osc := { s.osc with initialPhase := imm } }

/-- RESET zeroes phase, dividedPhase, dividerCount and RUN and nothing else. (R140) -/
def Obligations.ResetIsATimingOnlyOperation : Prop :=
  (∀ w : CommandWord, w.toNat / 2 ^ 32 = 5 → decode w = .reset) ∧
    (∀ s : State, exec .reset s = .next { s with osc := { s.osc with
      phase := 0#32, dividedPhase := 0#32, dividerCount := 0#16, run := false } }) ∧
    ∀ s : State, s.Inv → s.osc.run = false → exec .reset s = .next s

/-- TICK advances the phase always and the divided phase on a boundary tick, and sets RUN. (R136, R138) -/
def Obligations.TickAdvancesPhaseAndDivider : Prop :=
  (∀ w : CommandWord, w.toNat / 2 ^ 32 = 6 → decode w = .tick) ∧
    ∀ s : State, ∃ t : State, exec .tick s = .next t ∧
      t.osc.phase.toNat = (s.osc.phase.toNat + s.osc.phaseIncrement.toNat) % 2 ^ 32 ∧
      (if s.osc.dividerCount.toNat + 1 ≥ s.osc.divider.toNat then
        t.osc.dividedPhase.toNat = (s.osc.dividedPhase.toNat + s.osc.phaseIncrement.toNat) % 2 ^ 32 ∧
          t.osc.dividerCount.toNat = 0
      else
        t.osc.dividedPhase = s.osc.dividedPhase ∧ t.osc.dividerCount.toNat = s.osc.dividerCount.toNat + 1) ∧
      t.osc.run = true ∧
      t = { s with osc := { s.osc with
        phase := t.osc.phase, dividedPhase := t.osc.dividedPhase, dividerCount := t.osc.dividerCount,
        run := t.osc.run } }

/-- RENDER computes one sample from the effective phase, writes sampleOut and responds with it. (R156, R167, R169) -/
def Obligations.RenderWritesTheScaledWave : Prop :=
  (∀ w : CommandWord, w.toNat / 2 ^ 32 = 7 →
    decode w = .render (if w.toNat % 8 > 4 then 0#3 else BitVec.ofNat 3 w.toNat)) ∧
    (∀ sel : BitVec 3, shapeOf sel = if sel = 1#3 then .triangle else if sel = 2#3 then .trapezoid
      else if sel = 3#3 then .ramp else if sel = 4#3 then .saw else .sine) ∧
    (∀ (rom : SineRom) (b : Build) (p : Word32), waveOf rom b .sine p = sineWave rom p ∧
      waveOf rom b .triangle p = triangleWave p ∧ waveOf rom b .trapezoid p = trapezoidWave b.trapShift p ∧
      waveOf rom b .ramp p = rampWave p ∧ waveOf rom b .saw p = sawWave p) ∧
    (∀ (s : State) (sel : BitVec 3), ∃ (t : State) (p : Word32) (smp : Word16), exec (.render sel) s = .next t ∧
      p.toNat = ((if s.build.renderSrc = .divided then s.osc.dividedPhase else s.osc.phase).toNat +
        s.osc.initialPhase.toNat) % 2 ^ 32 ∧
      smp.toInt = Int.tdiv (waveOf Config.sineRom s.build (shapeOf sel) p * s.osc.level.toNat) 65536 ∧
      t = { s with osc := { s.osc with sampleOut := smp }, ports := { s.ports with sampleValid := true },
                   responses := s.responses ++ [.sample smp] }) ∧
    ∀ (roms : Roms) (s : State) (sel : BitVec 3), ∃ (t : State) (p : Word32) (smp : Word16),
      execWith roms (.render sel) s = .next t ∧
      p.toNat = ((if s.build.renderSrc = .divided then s.osc.dividedPhase else s.osc.phase).toNat +
        s.osc.initialPhase.toNat) % 2 ^ 32 ∧
      smp.toInt = Int.tdiv (waveOf roms.sineRom s.build (shapeOf sel) p * s.osc.level.toNat) 65536 ∧
      t = { s with osc := { s.osc with sampleOut := smp }, ports := { s.ports with sampleValid := true },
                   responses := s.responses ++ [.sample smp] }

/-- READ returns the selected register, 0 for the numbers 11 to 15, and changes no register. (R82, R191) -/
def Obligations.ReadReturnsTheSelectedRegister : Prop :=
  (∀ w : CommandWord, w.toNat / 2 ^ 32 = 8 → decode w = .read (BitVec.ofNat 4 w.toNat)) ∧
    ∀ (s : State) (rsel : BitVec 4), ∃ (t : State) (v : Word32), exec (.read rsel) s = .next t ∧
      t = { s with ports := { s.ports with rdata := v, rdataValid := true },
                   responses := s.responses ++ [.data v] } ∧
      (rsel = 0#4 → v.toInt = s.osc.pitch.toInt) ∧
      (rsel = 1#4 → v.toInt = s.osc.dividedPitch.toInt) ∧
      (rsel = 2#4 → v = s.osc.phase) ∧
      (rsel = 3#4 → v = s.osc.dividedPhase) ∧
      (rsel = 4#4 → v.toNat = s.osc.divider.toNat) ∧
      (rsel = 5#4 → v.toNat = s.osc.dividerCount.toNat) ∧
      (rsel = 6#4 → v.toNat = s.osc.level.toNat) ∧
      (rsel = 7#4 → v = s.osc.initialPhase) ∧
      (rsel = 8#4 → v = s.osc.phaseIncrement) ∧
      (rsel = 9#4 → v.toNat = if s.osc.run then 1 else 0) ∧
      (rsel = 10#4 → v.toInt = s.osc.sampleOut.toInt) ∧
      (11 ≤ rsel.toNat → v = 0#32)

/-- A step executes the decoded next word. The step with no command presented and the end of a pulse are the model's
choice (log entries 2, 3 and 4; spec: R71 "pulses once", R251 "simply holds its state"). (00_scope.md R5, 10_state.md
R34, 30_encoding.md R71, 70_reset_and_hazards.md R251) -/
def Obligations.StepRunsTheDecodedCommand : Prop :=
  ∀ s : State,
    (∀ (w : CommandWord) (rest : List CommandWord), s.pending = w :: rest → (decode w).wellFormed = true →
      step s = exec (decode w) { s with pending := rest, index := s.index + 1,
                                        ports := { s.ports with sampleValid := false, rdataValid := false } }) ∧
    (s.pending = [] →
      step s = .next { s with ports := { s.ports with sampleValid := false, rdataValid := false } }) ∧
    ∀ roms : Roms,
      (∀ (w : CommandWord) (rest : List CommandWord), s.pending = w :: rest → (decode w).wellFormed = true →
        stepWith roms s = execWith roms (decode w)
          { s with pending := rest, index := s.index + 1,
                   ports := { s.ports with sampleValid := false, rdataValid := false } }) ∧
      (s.pending = [] →
        stepWith roms s = .next { s with ports := { s.ports with sampleValid := false, rdataValid := false } })

/-- SETPITCH then SETDIV gives the same state as SETDIV then SETPITCH. (70_reset_and_hazards.md R233, 10_state.md R32
I3) -/
def Obligations.SettersOfPitchAndDividerCommute : Prop :=
  ∀ (s : State) (p d : Word16), ∃ t u v : State,
    exec (.setpitch p) s = .next t ∧ exec (.setdiv d) t = .next v ∧
    exec (.setdiv d) s = .next u ∧ exec (.setpitch p) u = .next v

/-- computeIncrement saturates at both ends and always lies in INC_MIN..INC_MAX. (40_mapper.md R100, R101, R107(e),
00_scope.md R11) -/
def Obligations.IncrementSaturatesAndStaysInRange : Prop :=
  ∀ p : Int, 20971 ≤ computeIncrement Config.pitchRom p ∧ computeIncrement Config.pitchRom p ≤ 1373786889 ∧
    (p ≤ -16896 → computeIncrement Config.pitchRom p = 20971) ∧
    (7679 ≤ p → computeIncrement Config.pitchRom p = 1373786889) ∧
    computeIncrement Config.pitchRom p = computeIncrement Config.pitchRom (max (-16896) (min 7679 p))

/-- computeIncrement is monotonically non-decreasing in the pitch. (40_mapper.md R107(b), 10_state.md R32 I7) -/
def Obligations.IncrementIsMonotone : Prop :=
  ∀ p q : Int, p ≤ q → computeIncrement Config.pitchRom p ≤ computeIncrement Config.pitchRom q

/-- The increments of two adjacent pitch codes differ by at most 602645, a bound that is reached. (40_mapper.md
R107(c)) -/
def Obligations.AdjacentIncrementsDifferByAtMost602645 : Prop :=
  (∀ p : Int, computeIncrement Config.pitchRom (p + 1) - computeIncrement Config.pitchRom p ≤ 602645) ∧
    ∃ p : Int, -16896 ≤ p ∧ p + 1 ≤ 7679 ∧
      computeIncrement Config.pitchRom (p + 1) - computeIncrement Config.pitchRom p = 602645

/-- An octave up doubles the increment, or doubles it and adds 1, across the supported range. (40_mapper.md R107(d),
40_mapper.md R105) -/
def Obligations.OctaveUpDoublesTheIncrement : Prop :=
  ∀ p : Int, -16896 ≤ p → p + 1536 ≤ 7679 →
    computeIncrement Config.pitchRom (p + 1536) - 2 * computeIncrement Config.pitchRom p = 0 ∨
      computeIncrement Config.pitchRom (p + 1536) - 2 * computeIncrement Config.pitchRom p = 1

/-- The three anchors have the increments of R108. (40_mapper.md R108) -/
def Obligations.AnchorsHaveTheirIncrements : Prop :=
  Config.pitch1Hz.toInt = -5102 ∧ computeIncrement Config.pitchRom Config.pitch1Hz.toInt = 4296778 ∧
    Config.pitch10Hz.toInt = 0 ∧ computeIncrement Config.pitchRom Config.pitch10Hz.toInt = 42949672 ∧
    Config.pitch100Hz.toInt = 5102 ∧ computeIncrement Config.pitchRom Config.pitch100Hz.toInt = 429488793

/-- The pitch ROM rounds the equal-tempered scale and rises to twice its first entry; the sine ROM has its symmetries.
(20_memory.md R52, R53) -/
def Obligations.RomContentsKeepTheirShape : Prop :=
  (∀ i : Fin 12, readPitchRom Config.pitchRom i.castSucc < readPitchRom Config.pitchRom i.succ) ∧
    (∀ i : Fin 12,
      ((2 * readPitchRom Config.pitchRom i.castSucc - 1) * Config.fTickCal) ^ 12 < (2 ^ 33 * 160) ^ 12 * 2 ^ i.val ∧
      (2 ^ 33 * 160) ^ 12 * 2 ^ i.val < ((2 * readPitchRom Config.pitchRom i.castSucc + 1) * Config.fTickCal) ^ 12) ∧
    readPitchRom Config.pitchRom 12 = 2 * readPitchRom Config.pitchRom 0 ∧
    ∀ k : Fin 129, ∀ a b c d : Fin 257, a.val = k.val → b.val = 256 - k.val → c.val = 128 - k.val →
      d.val = 128 + k.val →
      readSineRom Config.sineRom b = -readSineRom Config.sineRom a ∧
      readSineRom Config.sineRom c = readSineRom Config.sineRom a ∧
      readSineRom Config.sineRom d = -readSineRom Config.sineRom a

/-- ilog2 is the floor of the base-2 logarithm, the number of halvings down to 1, at most 15. (R120) -/
def Obligations.HalvingsCountTheHighestSetBit : Prop :=
  ∀ d : Nat, 1 ≤ d → d ≤ 65535 →
    2 ^ ilog2 d ≤ d ∧ d < 2 ^ (ilog2 d + 1) ∧ ilog2 d ≤ 15 ∧
      ilog2 d = if d = 1 then 0 else ilog2 (d / 2) + 1

/-- The divided pitch is the pitch less 1536 per halving, in -55808..32767, and 17 bits hold it. (R121) -/
def Obligations.DividedPitchFitsItsRegister : Prop :=
  ∀ (p : Word16) (d : Nat), 1 ≤ d → d ≤ 65535 →
    dividedPitchOf p.toInt d = p.toInt - 1536 * (Nat.log2 d : Int) ∧
      -55808 ≤ dividedPitchOf p.toInt d ∧ dividedPitchOf p.toInt d ≤ 32767 ∧
      (BitVec.ofInt 17 (dividedPitchOf p.toInt d)).toInt = dividedPitchOf p.toInt d

/-- A SETDIV at or below the current count makes the very next TICK a boundary tick. (70_reset_and_hazards.md R245(b),
(d), 42_accumulator.md R137(a)) -/
def Obligations.LoweredDividerMakesTheNextTickABoundary : Prop :=
  ∀ (s : State) (d2 : Word16), 1 ≤ d2.toNat → d2.toNat ≤ s.osc.dividerCount.toNat →
    ∃ t u : State, exec (.setdiv d2) s = .next t ∧ exec .tick t = .next u ∧
      t.osc.dividerCount = s.osc.dividerCount ∧ t.osc.dividedPhase = s.osc.dividedPhase ∧
      u.osc.dividerCount = 0#16 ∧ u.osc.divider = d2 ∧
      u.osc.dividedPhase.toNat = (s.osc.dividedPhase.toNat + s.osc.phaseIncrement.toNat) % 2 ^ 32

/-- After a SETDIV above the current count c the next boundary tick comes d2 - c ticks later. (70_reset_and_hazards.md
R245(a), 42_accumulator.md R137) -/
def Obligations.RaisedDividerStretchesTheWindow : Prop :=
  ∀ (roms : Roms) (s : State) (d2 : Word16) (k : Nat), s.osc.dividerCount.toNat < d2.toNat →
    k ≤ d2.toNat - s.osc.dividerCount.toNat →
    ∃ t : State, runStream roms (encode (.setdiv d2) :: List.replicate k (encode .tick)) s = .next t ∧
      if k < d2.toNat - s.osc.dividerCount.toNat then
        t.osc.dividerCount.toNat = s.osc.dividerCount.toNat + k ∧ t.osc.dividedPhase = s.osc.dividedPhase
      else
        t.osc.dividerCount.toNat = 0 ∧
          t.osc.dividedPhase.toNat = (s.osc.dividedPhase.toNat + s.osc.phaseIncrement.toNat) % 2 ^ 32

/-- dividerCount is below divider after every TICK and RESET and stays so under every command but SETDIV. (10_state.md
R32 I5) -/
def Obligations.CountStaysInItsWindowUntilSetdiv : Prop :=
  ∀ (i : Instr) (s t : State), 1 ≤ s.osc.divider.toNat →
    (exec i s = .next t ∨ ∃ roms : Roms, execWith roms i s = .next t) →
    ((i = .tick ∨ i = .reset) → t.osc.countInWindow) ∧
      (isSetdiv i = false → s.osc.countInWindow → t.osc.countInWindow)

/-- Over any stream without SETPITCH and RESET the phase advances by the increment once per TICK. (R141) -/
def Obligations.PhaseIsTicksTimesIncrement : Prop :=
  (∀ (roms : Roms) (s : State) (ws : List CommandWord),
    (∀ w ∈ ws, decode w ≠ .reset ∧ isSetpitch (decode w) = false) →
    ∃ t : State, runStream roms ws s = .next t ∧
      t.osc.phase.toNat = (s.osc.phase.toNat + countTicks ws * s.osc.phaseIncrement.toNat) % 2 ^ 32) ∧
    (∀ (roms : Roms) (b : Build), (State.powerOn roms b).osc.phase.toNat = 0) ∧
    ∀ s : State, ∃ t : State, exec .reset s = .next t ∧ t.osc.phase.toNat = 0

/-- With divider 1 and equal phases the two phases stay equal through any stream without another divider. (R142) -/
def Obligations.DividerOneKeepsThePhasesEqual : Prop :=
  (∀ (roms : Roms) (s : State) (ws : List CommandWord), s.osc.divider = 1#16 → s.osc.dividedPhase = s.osc.phase →
    (∀ w ∈ ws, ∀ imm : Word16, decode w = .setdiv imm → imm.toNat ≤ 1) →
    ∃ t : State, runStream roms ws s = .next t ∧ t.osc.divider = 1#16 ∧ t.osc.dividedPhase = t.osc.phase) ∧
    (∀ (roms : Roms) (b : Build), (State.powerOn roms b).osc.divider = 1#16 ∧
      (State.powerOn roms b).osc.dividedPhase = (State.powerOn roms b).osc.phase) ∧
    ∀ s : State, ∃ t : State, exec .reset s = .next t ∧ t.osc.dividedPhase = t.osc.phase

/-- With a constant divider d every d-th tick is a boundary tick, and after n ticks the divided phase has advanced n /
d times. (R143) -/
def Obligations.DividedPhaseAdvancesOncePerWindow : Prop :=
  ∀ (roms : Roms) (s : State) (ws : List CommandWord), 1 ≤ s.osc.divider.toNat → s.osc.dividerCount.toNat = 0 →
    (∀ w ∈ ws, decode w ≠ .reset ∧ isSetdiv (decode w) = false) →
    ∃ t : State, runStream roms ws s = .next t ∧ t.osc.divider = s.osc.divider ∧
      t.osc.dividerCount.toNat = countTicks ws % s.osc.divider.toNat ∧
      (t.osc.atBoundary = true ↔ (countTicks ws + 1) % s.osc.divider.toNat = 0) ∧
      ((∀ w ∈ ws, isSetpitch (decode w) = false) →
        t.osc.dividedPhase.toNat =
          (s.osc.dividedPhase.toNat + countTicks ws / s.osc.divider.toNat * s.osc.phaseIncrement.toNat) % 2 ^ 32)

/-- TICK makes the instance Running, RESET makes it Idle, every other command leaves RUN as it is. (R145) -/
def Obligations.RunFollowsTickAndReset : Prop :=
  (∀ (i : Instr) (s : State), ∃ t : State, exec i s = .next t ∧
    t.osc.runState = if i = .tick then .running else if i = .reset then .idle else s.osc.runState) ∧
    (∀ (roms : Roms) (i : Instr) (s : State), ∃ t : State, execWith roms i s = .next t ∧
      t.osc.runState = if i = .tick then .running else if i = .reset then .idle else s.osc.runState) ∧
    ∃ s t : State, s.Inv ∧ exec .tick s = .next t ∧ t.osc.runState = .running ∧ t.osc.phase = 0#32

/-- The ramp is p[31:16] - 32768: minimum in the first step, maximum in the last, rising by 1 per step. (R160) -/
def Obligations.RampRisesAcrossTheCycle : Prop :=
  ∀ p : Word32, rampWave p = (p.toNat : Int) / 65536 - 32768 ∧ -32768 ≤ rampWave p ∧ rampWave p ≤ 32767 ∧
    BitVec.ofInt 16 (rampWave p) = p.extractLsb' 16 16 ^^^ 0x8000#16 ∧
    (rampWave p = -32768 ↔ p.toNat ≤ 0x0000FFFF) ∧
    (rampWave p = 32767 ↔ 0xFFFF0000 ≤ p.toNat) ∧
    (rampWave p = 0 ↔ 0x80000000 ≤ p.toNat ∧ p.toNat ≤ 0x8000FFFF) ∧
    (p.toNat < 0xFFFF0000 → rampWave (p + 65536#32) = rampWave p + 1)

/-- The saw is -1 minus the ramp, its bitwise complement, falling from maximum to minimum. (R161) -/
def Obligations.SawMirrorsTheRamp : Prop :=
  ∀ p : Word32, sawWave p = 32767 - (p.toNat : Int) / 65536 ∧ sawWave p = -1 - rampWave p ∧
    BitVec.ofInt 16 (sawWave p) = ~~~(BitVec.ofInt 16 (rampWave p)) ∧
    -32768 ≤ sawWave p ∧ sawWave p ≤ 32767 ∧
    (sawWave p = 32767 ↔ p.toNat ≤ 0x0000FFFF) ∧
    (sawWave p = -32768 ↔ 0xFFFF0000 ≤ p.toNat) ∧
    (sawWave p = 0 ↔ 0x7FFF0000 ≤ p.toNat ∧ p.toNat ≤ 0x7FFFFFFF) ∧
    (sawWave p = -1 ↔ 0x80000000 ≤ p.toNat ∧ p.toNat ≤ 0x8000FFFF)

/-- The triangle is the piecewise law on u = p[31:15], with its extremes, zeros and mirror. (R162) -/
def Obligations.TriangleFoldsTheTopSeventeenBits : Prop :=
  ∀ p : Word32,
    triangleWave p = (if p.toNat / 32768 ≤ 32767 then ((p.toNat / 32768 : Nat) : Int)
      else if p.toNat / 32768 ≤ 98303 then 65535 - ((p.toNat / 32768 : Nat) : Int)
      else ((p.toNat / 32768 : Nat) : Int) - 131072) ∧
    -32768 ≤ triangleWave p ∧ triangleWave p ≤ 32767 ∧
    (triangleWave p = 32767 ↔ 0x3FFF8000 ≤ p.toNat ∧ p.toNat ≤ 0x40007FFF) ∧
    (triangleWave p = -32768 ↔ 0xBFFF8000 ≤ p.toNat ∧ p.toNat ≤ 0xC0007FFF) ∧
    (triangleWave p = 0 ↔ p.toNat ≤ 0x00007FFF ∨ (0x7FFF8000 ≤ p.toNat ∧ p.toNat ≤ 0x7FFFFFFF)) ∧
    (triangleWave p = -1 ↔ (0x80000000 ≤ p.toNat ∧ p.toNat ≤ 0x80007FFF) ∨ 0xFFFF8000 ≤ p.toNat) ∧
    triangleWave p + triangleWave (p + 0x80000000#32) = -1

/-- The trapezoid is the triangle times 2^TRAP_SHIFT, clipped to 16 bits, with its plateaus. (R163) -/
def Obligations.TrapezoidClipsTheTriangle : Prop :=
  ∀ p : Word32,
    (∀ k : Fin 16, trapezoidWave k p = max (-32768) (min 32767 (triangleWave p * 2 ^ k.val))) ∧
    trapezoidWave 0 p = triangleWave p ∧
    (trapezoidWave 1 p = 32767 ↔ 0x20000000 ≤ p.toNat ∧ p.toNat ≤ 0x5FFFFFFF) ∧
    (trapezoidWave 1 p = -32768 ↔ 0x9FFF8000 ≤ p.toNat ∧ p.toNat ≤ 0xE0007FFF) ∧
    (-16384 ≤ triangleWave p → triangleWave p ≤ 16383 → trapezoidWave 1 p = 2 * triangleWave p) ∧
    (1 ≤ triangleWave p → trapezoidWave 15 p = 32767) ∧
    (triangleWave p ≤ -1 → trapezoidWave 15 p = -32768) ∧
    (triangleWave p = 0 → trapezoidWave 15 p = 0)

/-- The sine is the floored chord between two neighbours of the table and never leaves them. (43_renderer.md R164,
R165, R166, 20_memory.md R53) -/
def Obligations.SineInterpolatesItsTable : Prop :=
  (∀ (rom : SineRom) (p : Word32) (a b f : Int), a = (rom.entries.map BitVec.toInt).getD (p.toNat / 2 ^ 24) 0 →
    b = (rom.entries.map BitVec.toInt).getD (p.toNat / 2 ^ 24 + 1) 0 → f = ((p.toNat / 2 ^ 8 % 2 ^ 16 : Nat) : Int) →
    sineWave rom p = a + (b - a) * f / 65536 ∧ min a b ≤ sineWave rom p ∧ sineWave rom p ≤ max a b) ∧
  Config.sineRom.entries.map BitVec.toInt = Config.sineTable ∧
  ∀ p : Word32, ∀ a b f : Int, a = Config.sineTable.getD (p.toNat / 2 ^ 24) 0 →
    b = Config.sineTable.getD (p.toNat / 2 ^ 24 + 1) 0 → f = ((p.toNat / 2 ^ 8 % 2 ^ 16 : Nat) : Int) →
    sineWave Config.sineRom p = a + (b - a) * f / 65536 ∧
    min a b ≤ sineWave Config.sineRom p ∧ sineWave Config.sineRom p ≤ max a b ∧
    -32767 ≤ sineWave Config.sineRom p ∧ sineWave Config.sineRom p ≤ 32767 ∧
    (f = 0 → sineWave Config.sineRom p = a) ∧
    (∀ q : Word32, q.toNat / 2 ^ 8 = p.toNat / 2 ^ 8 → sineWave Config.sineRom q = sineWave Config.sineRom p) ∧
    (sineWave Config.sineRom p = 32767 ↔ 0x40000000 ≤ p.toNat ∧ p.toNat ≤ 0x400000FF) ∧
    (0xBFFFFF00 ≤ p.toNat → p.toNat ≤ 0xC00000FF → sineWave Config.sineRom p = -32767) ∧
    (p.toNat ≤ 0x000051FF → sineWave Config.sineRom p = 0) ∧
    (0x80000000 ≤ p.toNat → p.toNat ≤ 0x800000FF → sineWave Config.sineRom p = 0)

/-- Level scaling truncates toward zero: odd, monotone in the level, zero at zero, inside 16 bits. (R168) -/
def Obligations.LevelScalesWithoutOffset : Prop :=
  ∀ (wave : Int) (level : Nat), -32768 ≤ wave → wave ≤ 32767 → level ≤ 65535 →
    scaleWave wave level = Int.tdiv (wave * level) 65536 ∧
    scaleWave wave 0 = 0 ∧ scaleWave 0 level = 0 ∧ scaleWave (-wave) level = -scaleWave wave level ∧
    (scaleWave wave level ≠ 0 → (0 < scaleWave wave level ↔ 0 < wave)) ∧
    -32767 ≤ scaleWave wave level ∧ scaleWave wave level ≤ 32767 ∧
    (∀ higher : Nat, level ≤ higher → higher ≤ 65535 →
      (0 ≤ wave → scaleWave wave level ≤ scaleWave wave higher) ∧
      (wave ≤ 0 → scaleWave wave higher ≤ scaleWave wave level)) ∧
    scaleWave 32767 level ≠ 32767 ∧
    scaleWave wave 65535 = if 1 ≤ wave then wave - 1 else if wave = 0 then 0 else wave + 1

/-- Every sample lies in lo(L)..hi(L), and each shape reaches its documented extremes. (R171) -/
def Obligations.SamplesStayWithinTheirBounds : Prop :=
  (∀ (s : State) (sel : BitVec 3), ∃ t : State, exec (.render sel) s = .next t ∧
    -((s.osc.level.toNat / 2 : Nat) : Int) ≤ t.osc.sampleOut.toInt ∧
    t.osc.sampleOut.toInt ≤ ((32767 * s.osc.level.toNat / 65536 : Nat) : Int) ∧
    -32767 ≤ t.osc.sampleOut.toInt ∧ t.osc.sampleOut.toInt ≤ 32766 ∧
    (shapeOf sel = .sine → -((32767 * s.osc.level.toNat / 65536 : Nat) : Int) ≤ t.osc.sampleOut.toInt)) ∧
    (∀ (roms : Roms) (s : State) (sel : BitVec 3), ∃ t : State, execWith roms (.render sel) s = .next t ∧
      -((s.osc.level.toNat / 2 : Nat) : Int) ≤ t.osc.sampleOut.toInt ∧
      t.osc.sampleOut.toInt ≤ ((32767 * s.osc.level.toNat / 65536 : Nat) : Int) ∧
      -32767 ≤ t.osc.sampleOut.toInt ∧ t.osc.sampleOut.toInt ≤ 32766) ∧
    ∀ (L : Nat) (rom : SineRom) (b : Build) (p : Word32) (hi lo : Int), L ≤ 65535 →
      hi = ((32767 * L / 65536 : Nat) : Int) → lo = -((L / 2 : Nat) : Int) →
      (0x40000000 ≤ p.toNat → p.toNat ≤ 0x400000FF → scaleWave (waveOf Config.sineRom b .sine p) L = hi) ∧
      (p.toNat = 0xC0000000 → scaleWave (waveOf Config.sineRom b .sine p) L = -hi) ∧
      (0x3FFF8000 ≤ p.toNat → p.toNat ≤ 0x40007FFF → scaleWave (waveOf rom b .triangle p) L = hi) ∧
      (0xBFFF8000 ≤ p.toNat → p.toNat ≤ 0xC0007FFF → scaleWave (waveOf rom b .triangle p) L = lo) ∧
      (b.trapShift = 1 → 0x20000000 ≤ p.toNat → p.toNat ≤ 0x5FFFFFFF →
        scaleWave (waveOf rom b .trapezoid p) L = hi) ∧
      (b.trapShift = 1 → 0x9FFF8000 ≤ p.toNat → p.toNat ≤ 0xE0007FFF →
        scaleWave (waveOf rom b .trapezoid p) L = lo) ∧
      (0xFFFF0000 ≤ p.toNat → scaleWave (waveOf rom b .ramp p) L = hi) ∧
      (p.toNat ≤ 0x0000FFFF → scaleWave (waveOf rom b .ramp p) L = lo) ∧
      (p.toNat ≤ 0x0000FFFF → scaleWave (waveOf rom b .saw p) L = hi) ∧
      (0xFFFF0000 ≤ p.toNat → scaleWave (waveOf rom b .saw p) L = lo)

/-- Two renders with equal source phase, offset, level and build return the same sample. (R172) -/
def Obligations.RenderDependsOnlyOnPhaseOffsetAndLevel : Prop :=
  ∀ (s u : State) (sel : BitVec 3), s.build = u.build →
    (if s.build.renderSrc = .divided then s.osc.dividedPhase = u.osc.dividedPhase
      else s.osc.phase = u.osc.phase) →
    s.osc.initialPhase = u.osc.initialPhase → s.osc.level = u.osc.level →
    (∃ (t v : State) (smp : Word16), exec (.render sel) s = .next t ∧ exec (.render sel) u = .next v ∧
      t.osc.sampleOut = smp ∧ v.osc.sampleOut = smp ∧
      t.responses = s.responses ++ [.sample smp] ∧ v.responses = u.responses ++ [.sample smp]) ∧
    ∀ roms : Roms, ∃ (t v : State) (smp : Word16),
      execWith roms (.render sel) s = .next t ∧ execWith roms (.render sel) u = .next v ∧
      t.osc.sampleOut = smp ∧ v.osc.sampleOut = smp ∧
      t.responses = s.responses ++ [.sample smp] ∧ v.responses = u.responses ++ [.sample smp]

/-- A RENDER repeated after any stream without SETLEVEL, SETPHASE, RESET and TICK returns the same sample. (R243) -/
def Obligations.RenderIsIdempotentUntilDisturbed : Prop :=
  ∀ (roms : Roms) (s : State) (sel : BitVec 3) (ws : List CommandWord), (∀ w ∈ ws, disturbsRender (decode w) = false) →
    ∃ t u v : State, execWith roms (.render sel) s = .next t ∧ runStream roms ws t = .next u ∧
      execWith roms (.render sel) u = .next v ∧
      v.osc.sampleOut = t.osc.sampleOut

/-- After RESET the next RENDER returns the value at effective phase initialPhase, for both sources. (R232) -/
def Obligations.RenderAfterResetIsAtTheOffset : Prop :=
  ∀ (roms : Roms) (s : State) (sel : BitVec 3), ∃ t u : State,
    execWith roms .reset s = .next t ∧ execWith roms (.render sel) t = .next u ∧
    t.osc.phase = 0#32 ∧
    u.osc.sampleOut.toInt =
      scaleWave (waveOf roms.sineRom s.build (shapeOf sel) s.osc.initialPhase) s.osc.level.toNat ∧
    (s.osc.initialPhase = 0#32 → (shapeOf sel = .sine → roms.sineRom = Config.sineRom) → u.osc.sampleOut.toInt =
      if sel = 3#3 then -((s.osc.level.toNat / 2 : Nat) : Int)
      else if sel = 4#3 then ((32767 * s.osc.level.toNat / 65536 : Nat) : Int) else 0)

/-- With RENDER_SRC = DIVIDED and divider d the first d - 1 ticks after RESET leave the sample as in Idle.
(70_reset_and_hazards.md R234, 42_accumulator.md R137(c)) -/
def Obligations.FirstStepsAfterResetRepeatTheIdleSample : Prop :=
  ∀ (roms : Roms) (s : State) (sel : BitVec 3) (k : Nat), s.build.renderSrc = .divided → k < s.osc.divider.toNat →
    ∃ t u v w : State, execWith roms .reset s = .next t ∧ execWith roms (.render sel) t = .next u ∧
      runStream roms (List.replicate k (encode .tick)) t = .next v ∧ execWith roms (.render sel) v = .next w ∧
      w.osc.sampleOut = u.osc.sampleOut ∧ v.osc.dividedPhase = 0#32 ∧
      (k = 1 → v.osc.phase = s.osc.phaseIncrement)

/-- Every step from a state that meets the invariants of R32 answers a state that meets them. (10_state.md R32 (I1,
I2, I3, I5, I6, I7, I8), 60_exceptions.md R200) -/
def Obligations.StepKeepsTheInvariants : Prop :=
  (∀ s : State, s.Inv → ∃ t : State, step s = .next t ∧ t.Inv) ∧
    ∀ (roms : Roms) (s : State), s.InvOver roms → ∃ t : State, stepWith roms s = .next t ∧ t.InvOver roms

/-- The power-on state meets the invariants of R32, over any ROM contents as log entry 7 has it. (10_state.md R32,
10_state.md R37) -/
def Obligations.PowerOnMeetsTheInvariants : Prop :=
  State.reset.Inv ∧ ∀ (roms : Roms) (b : Build), (State.powerOn roms b).InvOver roms ∧ (State.powerOn roms b).osc.countInWindow

/-- Every finite stream runs to its end from every state, and its result is the state with the responses. (R251) -/
def Obligations.EveryStreamRunsToItsEnd : Prop :=
  ∀ (roms : Roms) (s : State) (ws : List CommandWord), ∃ (t : State) (rs : List Response), runStream roms ws s = .next t ∧
    t.pending = [] ∧ t.index = s.index + ws.length ∧ t.responses = s.responses ++ rs ∧
    rs.length = (ws.countP fun w => givesResponse (decode w)) ∧
    rs.map kindOf = ws.filterMap (fun w => responseKind (decode w)) ∧
    ∀ us vs : List CommandWord, ws = us ++ vs →
      ∃ u : State, runStream roms us s = .next u ∧ runStream roms vs u = .next t ∧ u.responses <+: t.responses

/-- The sample port shows the last sample and rdata the last data, after every step. The value of rdata before the
first READ is the model's choice (log entry 1). (30_encoding.md R71, 10_state.md R31) -/
def Obligations.PortsShowTheMostRecentResponses : Prop :=
  (∀ s t : State, s.portsAgree → step s = .next t → t.portsAgree) ∧
    (∀ (roms : Roms) (s t : State), s.portsAgree → stepWith roms s = .next t → t.portsAgree) ∧
    ∀ (roms : Roms) (b : Build), (State.powerOn roms b).portsAgree

/-- The pulses mark RENDER and READ. How long a pulse lasts at the command level is the model's reading of R71 "pulses
once" (log entry 2). (30_encoding.md R71) -/
def Obligations.PulsesMarkRenderAndRead : Prop :=
  ∀ (s : State) (w : CommandWord) (rest : List CommandWord), s.pending = w :: rest →
    (∃ t : State, step s = .next t ∧ t.pending = rest ∧ t.index = s.index + 1 ∧
      (t.ports.sampleValid = true ↔ ∃ sel : BitVec 3, decode w = .render sel) ∧
      (t.ports.rdataValid = true ↔ ∃ rsel : BitVec 4, decode w = .read rsel)) ∧
    ∀ roms : Roms, ∃ t : State, stepWith roms s = .next t ∧ t.pending = rest ∧ t.index = s.index + 1 ∧
      (t.ports.sampleValid = true ↔ ∃ sel : BitVec 3, decode w = .render sel) ∧
      (t.ports.rdataValid = true ↔ ∃ rsel : BitVec 4, decode w = .read rsel)

/-- NOP changes nothing, and a word that does nothing can be inserted anywhere unseen. (R190) -/
def Obligations.NopsMayBeInsertedAnywhere : Prop :=
  (∀ s : State, exec .nop s = .next s) ∧ (∀ w : CommandWord, w.toNat / 2 ^ 32 = 0 → decode w = .nop) ∧
    ∀ (roms : Roms) (s : State) (ws vs : List CommandWord) (w : CommandWord), isNoOperation (decode w) = true →
      ∃ t u : State, runStream roms (ws ++ vs) s = .next t ∧ runStream roms (ws ++ w :: vs) s = .next u ∧
        u.osc = t.osc ∧ u.responses = t.responses ∧ u.rdataPort = t.rdataPort

/-- dividedPitch, RUN and sampleOut influence no other register and no sample, over any stream. (41_divider.md R122,
10_state.md R30, R31) -/
def Obligations.BookkeepingInfluencesNoPhaseAndNoSample : Prop :=
  ∀ (roms : Roms) (s : State) (x : Word17) (r : Bool) (y : Word16) (ws : List CommandWord),
    ∃ t u : State, runStream roms ws s = .next t ∧
      runStream roms ws { s with osc := { s.osc with dividedPitch := x, run := r, sampleOut := y } } = .next u ∧
      u.osc = { t.osc with
        dividedPitch := u.osc.dividedPitch, run := u.osc.run, sampleOut := u.osc.sampleOut } ∧
      samplesOf u.responses = samplesOf t.responses

/-- With RENDER_SRC = MAIN no SETDIV changes a sample; with divider 1 both sources give the same samples.
(43_renderer.md R157, 42_accumulator.md R142) -/
def Obligations.MainSourceIgnoresTheDivider : Prop :=
  (∀ (roms : Roms) (s : State) (ws : List CommandWord), s.build.renderSrc = .main →
    ∃ t u : State, runStream roms ws s = .next t ∧
      runStream roms (ws.filter fun w => !isSetdiv (decode w)) s = .next u ∧
      samplesOf u.responses = samplesOf t.responses) ∧
    ∀ (roms : Roms) (s : State) (ws : List CommandWord), s.osc.divider = 1#16 → s.osc.dividedPhase = s.osc.phase →
      (∀ w ∈ ws, ∀ imm : Word16, decode w = .setdiv imm → imm.toNat ≤ 1) →
      ∃ t u : State,
        runStream roms ws { s with build := { s.build with renderSrc := .main } } = .next t ∧
        runStream roms ws { s with build := { s.build with renderSrc := .divided } } = .next u ∧
        samplesOf t.responses = samplesOf u.responses

/-- No step changes the build parameters. That they stand in State is the model's device (log entry 6).
(43_renderer.md R157, R163, 00_scope.md R6) -/
def Obligations.BuildParametersNeverChange : Prop :=
  (∀ s : State, ∃ t : State, step s = .next t ∧ t.build = s.build) ∧
    (∀ (roms : Roms) (s : State), ∃ t : State, stepWith roms s = .next t ∧ t.build = s.build) ∧
    State.reset.build.renderSrc = .divided ∧ State.reset.build.trapShift = 1

/-- Under every schedule the merged stream keeps each context's order, runs to its end and keeps the invariants.
(70_reset_and_hazards.md R240, 60_exceptions.md R205, 20_memory.md R60) -/
def Obligations.ScheduledStreamsKeepOrderAndInvariants : Prop :=
  ∀ (roms : Roms) (schedule : List Context) (ticks configs ws : List CommandWord) (s : State), s.InvOver roms →
    mergeStreams schedule ticks configs = some ws →
    List.Sublist ticks ws ∧ List.Sublist configs ws ∧ ws.length = ticks.length + configs.length ∧
      ∃ t : State, runMerged roms schedule ticks configs s = some (.next t) ∧ t.InvOver roms

/-- A step of one instance leaves every other instance as it is. The bank is the product R212 describes (log entry
12). (10_state.md R39, 60_exceptions.md R212) -/
def Obligations.InstancesAreIndependent : Prop :=
  ∀ (roms : Roms) (bank : Bank) (k : Nat) (s : State), bank[k]? = some s →
    ∃ (t : State) (next : Bank), stepWith roms s = .next t ∧ Bank.stepAt roms bank k = .next next ∧ next.length = bank.length ∧
      next[k]? = some t ∧ ∀ j : Nat, j ≠ k → next[j]? = bank[j]?

/-- The assembler expands the pseudo-instructions. How tokens are separated is the model's choice (log entry 13).
(30_encoding.md R84, R85) -/
def Obligations.PseudoInstructionsExpandToCommands : Prop :=
  assembleLine "STEP RAMP".toList = some [0x600000000#36, 0x700000003#36] ∧
    assembleLine "STEPN 2, SAW ; two".toList =
      some [0x600000000#36, 0x700000004#36, 0x600000000#36, 0x700000004#36] ∧
    assembleLine "TICKN 3".toList = some [0x600000000#36, 0x600000000#36, 0x600000000#36] ∧
    assembleLine "SETFREQ10".toList = some [0x100000000#36] ∧
    assembleLine "SETFREQ1".toList = some [0x10000EC12#36] ∧
    assembleLine "SETFREQ100".toList = some [0x1000013EE#36] ∧
    assembleLine "; a comment".toList = some [] ∧
    assembleLine ".word 0xF12345678".toList = some [0xF12345678#36] ∧
    AsmStatement.setFreq10.words = [encode (.setpitch 0#16)] ∧
    AsmStatement.setFreq1.words = [encode (.setpitch (BitVec.ofInt 16 (-5102)))] ∧
    AsmStatement.setFreq100.words = [encode (.setpitch 5102#16)] ∧
    (∀ sel : BitVec 3, (AsmStatement.step sel).words = [0x600000000#36, BitVec.ofNat 36 (0x700000000 + sel.toNat)]) ∧
    ∀ n : Nat, (AsmStatement.tickN n).words = List.replicate n 0x600000000#36 ∧
      ∀ sel : BitVec 3, (AsmStatement.stepN n sel).words.length = 2 * n ∧
        (AsmStatement.stepN n sel).words = (List.replicate n (AsmStatement.step sel).words).flatten

/-- computeIncrement is the floored chord between two neighbours of the pitch ROM, shifted by the octave, for every
pitch ROM. (R106) -/
def Obligations.IncrementInterpolatesItsTable : Prop :=
  (∀ (rom : PitchRom) (p pc a b : Int), pc = max (-16896) (min 7679 p) →
    a = (((rom.entries.map BitVec.toNat).getD (pc % 1536 / 128).toNat 0 : Nat) : Int) →
    b = (((rom.entries.map BitVec.toNat).getD ((pc % 1536 / 128).toNat + 1) 0 : Nat) : Int) →
    computeIncrement rom p = (a + (b - a) * (pc % 128) / 128) / 2 ^ (4 - pc / 1536).toNat) ∧
    Config.pitchRom.entries.map BitVec.toNat = Config.pitchTable ∧
    computeIncrement Config.pitchRom 200 = 47025597 ∧ computeIncrement Config.pitchRom (-5102) = 4296778

/-- Over any pitch ROM the power-on increment is computeIncrement(0) over that ROM. The spec lists the number for the
contents of R52 only; the rest is the reading of log entry 7. (10_state.md R37, 10_state.md R32 I2) -/
def Obligations.PowerOnIncrementFollowsThePitchRom : Prop :=
  ∀ (roms : Roms) (b : Build),
    ((State.powerOn roms b).osc.phaseIncrement.toNat : Int) = computeIncrement roms.pitchRom 0 ∧
      (State.powerOn roms b).osc =
        { State.reset.osc with phaseIncrement := (State.powerOn roms b).osc.phaseIncrement }

/-- The machine over the default ROM contents is the machine whose form the host fixes, and only SETPITCH and RENDER
read a ROM. (00_scope.md R6, 20_memory.md R51, R54) -/
def Obligations.DefaultRomsGiveTheMachine : Prop :=
  (∀ (i : Instr) (s : State), exec i s = execWith Config.defaultRoms i s) ∧
    (∀ s : State, step s = stepWith Config.defaultRoms s) ∧
    (∀ (ws : List CommandWord) (s : State),
      runStream Config.defaultRoms ws s = Host.Core.run Sys2Proof.core ws.length { s with pending := ws }) ∧
    Sys2Proof.core.reset = State.powerOn Config.defaultRoms Config.defaultBuild ∧
    ∀ (roms others : Roms) (i : Instr) (s : State),
      (isSetpitch i = true → roms.pitchRom = others.pitchRom) →
      ((∃ sel : BitVec 3, i = .render sel) → roms.sineRom = others.sineRom) →
      execWith roms i s = execWith others i s
end

