-- ==== Sys2Proof/Laws/State.lean ====
section
/-! SUPPORT. One lemma per field per update of the state's records, each true by unfolding once, so that no later proof unfolds a
record update. -/

namespace Sys2Proof.Machine

@[simp] theorem State.powerOn_osc (roms : Roms) (b : Build) : (State.powerOn roms b).osc = Osc.powerOn roms.pitchRom := rfl
@[simp] theorem State.powerOn_ports (roms : Roms) (b : Build) : (State.powerOn roms b).ports = Ports.powerOn := rfl
@[simp] theorem State.powerOn_build (roms : Roms) (b : Build) : (State.powerOn roms b).build = b := rfl
@[simp] theorem State.powerOn_pending (roms : Roms) (b : Build) : (State.powerOn roms b).pending = [] := rfl
@[simp] theorem State.powerOn_index (roms : Roms) (b : Build) : (State.powerOn roms b).index = 0 := rfl
@[simp] theorem State.powerOn_responses (roms : Roms) (b : Build) : (State.powerOn roms b).responses = [] := rfl

@[simp] theorem Osc.powerOn_pitch (rom : PitchRom) : (Osc.powerOn rom).pitch = 0#16 := rfl
@[simp] theorem Osc.powerOn_dividedPitch (rom : PitchRom) : (Osc.powerOn rom).dividedPitch = 0#17 := rfl
@[simp] theorem Osc.powerOn_phase (rom : PitchRom) : (Osc.powerOn rom).phase = 0#32 := rfl
@[simp] theorem Osc.powerOn_dividedPhase (rom : PitchRom) : (Osc.powerOn rom).dividedPhase = 0#32 := rfl
@[simp] theorem Osc.powerOn_divider (rom : PitchRom) : (Osc.powerOn rom).divider = 1#16 := rfl
@[simp] theorem Osc.powerOn_dividerCount (rom : PitchRom) : (Osc.powerOn rom).dividerCount = 0#16 := rfl
@[simp] theorem Osc.powerOn_level (rom : PitchRom) : (Osc.powerOn rom).level = 0#16 := rfl
@[simp] theorem Osc.powerOn_initialPhase (rom : PitchRom) : (Osc.powerOn rom).initialPhase = 0#32 := rfl
@[simp] theorem Osc.powerOn_phaseIncrement (rom : PitchRom) : (Osc.powerOn rom).phaseIncrement = BitVec.ofInt 32 (computeIncrement rom 0) := rfl
@[simp] theorem Osc.powerOn_run (rom : PitchRom) : (Osc.powerOn rom).run = false := rfl
@[simp] theorem Osc.powerOn_sampleOut (rom : PitchRom) : (Osc.powerOn rom).sampleOut = 0#16 := rfl

@[simp] theorem State.withOsc_osc (s : State) (o : Osc) : (s.withOsc o).osc = o := rfl
@[simp] theorem State.withOsc_ports (s : State) (o : Osc) : (s.withOsc o).ports = s.ports := rfl
@[simp] theorem State.withOsc_build (s : State) (o : Osc) : (s.withOsc o).build = s.build := rfl
@[simp] theorem State.withOsc_pending (s : State) (o : Osc) : (s.withOsc o).pending = s.pending := rfl
@[simp] theorem State.withOsc_index (s : State) (o : Osc) : (s.withOsc o).index = s.index := rfl
@[simp] theorem State.withOsc_responses (s : State) (o : Osc) : (s.withOsc o).responses = s.responses := rfl

@[simp] theorem State.respondSample_osc (s : State) (v : Word16) : (s.respondSample v).osc = s.osc := rfl
@[simp] theorem State.respondSample_ports (s : State) (v : Word16) : (s.respondSample v).ports = { s.ports with sampleValid := true } := rfl
@[simp] theorem State.respondSample_build (s : State) (v : Word16) : (s.respondSample v).build = s.build := rfl
@[simp] theorem State.respondSample_pending (s : State) (v : Word16) : (s.respondSample v).pending = s.pending := rfl
@[simp] theorem State.respondSample_index (s : State) (v : Word16) : (s.respondSample v).index = s.index := rfl
@[simp] theorem State.respondSample_responses (s : State) (v : Word16) : (s.respondSample v).responses = s.responses ++ [.sample v] := rfl

@[simp] theorem State.respondData_osc (s : State) (v : Word32) : (s.respondData v).osc = s.osc := rfl
@[simp] theorem State.respondData_ports (s : State) (v : Word32) : (s.respondData v).ports = { s.ports with rdata := v, rdataValid := true } := rfl
@[simp] theorem State.respondData_build (s : State) (v : Word32) : (s.respondData v).build = s.build := rfl
@[simp] theorem State.respondData_pending (s : State) (v : Word32) : (s.respondData v).pending = s.pending := rfl
@[simp] theorem State.respondData_index (s : State) (v : Word32) : (s.respondData v).index = s.index := rfl
@[simp] theorem State.respondData_responses (s : State) (v : Word32) : (s.respondData v).responses = s.responses ++ [.data v] := rfl

@[simp] theorem State.accept_osc (s : State) (rest : List CommandWord) : (s.accept rest).osc = s.osc := rfl
@[simp] theorem State.accept_ports (s : State) (rest : List CommandWord) : (s.accept rest).ports = s.ports.lower := rfl
@[simp] theorem State.accept_build (s : State) (rest : List CommandWord) : (s.accept rest).build = s.build := rfl
@[simp] theorem State.accept_pending (s : State) (rest : List CommandWord) : (s.accept rest).pending = rest := rfl
@[simp] theorem State.accept_index (s : State) (rest : List CommandWord) : (s.accept rest).index = s.index + 1 := rfl
@[simp] theorem State.accept_responses (s : State) (rest : List CommandWord) : (s.accept rest).responses = s.responses := rfl

@[simp] theorem State.idle_osc (s : State) : s.idle.osc = s.osc := rfl
@[simp] theorem State.idle_ports (s : State) : s.idle.ports = s.ports.lower := rfl
@[simp] theorem State.idle_build (s : State) : s.idle.build = s.build := rfl
@[simp] theorem State.idle_pending (s : State) : s.idle.pending = s.pending := rfl
@[simp] theorem State.idle_index (s : State) : s.idle.index = s.index := rfl
@[simp] theorem State.idle_responses (s : State) : s.idle.responses = s.responses := rfl

@[simp] theorem State.present_osc (s : State) (ws : List CommandWord) : (s.present ws).osc = s.osc := rfl
@[simp] theorem State.present_ports (s : State) (ws : List CommandWord) : (s.present ws).ports = s.ports := rfl
@[simp] theorem State.present_build (s : State) (ws : List CommandWord) : (s.present ws).build = s.build := rfl
@[simp] theorem State.present_pending (s : State) (ws : List CommandWord) : (s.present ws).pending = s.pending ++ ws := rfl
@[simp] theorem State.present_index (s : State) (ws : List CommandWord) : (s.present ws).index = s.index := rfl
@[simp] theorem State.present_responses (s : State) (ws : List CommandWord) : (s.present ws).responses = s.responses := rfl

@[simp] theorem State.showSample_osc (s : State) (smp : Word16) : (s.showSample smp).osc = { s.osc with sampleOut := smp } := rfl
@[simp] theorem State.showSample_ports (s : State) (smp : Word16) : (s.showSample smp).ports = { s.ports with sampleValid := true } := rfl
@[simp] theorem State.showSample_build (s : State) (smp : Word16) : (s.showSample smp).build = s.build := rfl
@[simp] theorem State.showSample_pending (s : State) (smp : Word16) : (s.showSample smp).pending = s.pending := rfl
@[simp] theorem State.showSample_index (s : State) (smp : Word16) : (s.showSample smp).index = s.index := rfl
@[simp] theorem State.showSample_responses (s : State) (smp : Word16) : (s.showSample smp).responses = s.responses ++ [.sample smp] := rfl

@[simp] theorem State.noOperation_osc (s : State) : s.noOperation.osc = s.osc := rfl
@[simp] theorem State.noOperation_ports (s : State) : s.noOperation.ports = s.ports := rfl
@[simp] theorem State.noOperation_build (s : State) : s.noOperation.build = s.build := rfl
@[simp] theorem State.noOperation_pending (s : State) : s.noOperation.pending = s.pending := rfl
@[simp] theorem State.noOperation_index (s : State) : s.noOperation.index = s.index := rfl
@[simp] theorem State.noOperation_responses (s : State) : s.noOperation.responses = s.responses := rfl

@[simp] theorem State.withFetchWord_osc (s : State) (nbits w : Nat) : (s.withFetchWord nbits w).osc = s.osc := rfl
@[simp] theorem State.withFetchWord_ports (s : State) (nbits w : Nat) : (s.withFetchWord nbits w).ports = s.ports := rfl
@[simp] theorem State.withFetchWord_build (s : State) (nbits w : Nat) : (s.withFetchWord nbits w).build = s.build := rfl
@[simp] theorem State.withFetchWord_pending (s : State) (nbits w : Nat) : (s.withFetchWord nbits w).pending = commandWordOf nbits w :: s.pending := rfl
@[simp] theorem State.withFetchWord_index (s : State) (nbits w : Nat) : (s.withFetchWord nbits w).index = s.index := rfl
@[simp] theorem State.withFetchWord_responses (s : State) (nbits w : Nat) : (s.withFetchWord nbits w).responses = s.responses := rfl

@[simp] theorem Ports.lower_rdata (p : Ports) : p.lower.rdata = p.rdata := rfl
@[simp] theorem Ports.lower_sampleValid (p : Ports) : p.lower.sampleValid = false := rfl
@[simp] theorem Ports.lower_rdataValid (p : Ports) : p.lower.rdataValid = false := rfl

@[simp] theorem Osc.setRun_pitch (o : Osc) : o.setRun.pitch = o.pitch := rfl
@[simp] theorem Osc.setRun_dividedPitch (o : Osc) : o.setRun.dividedPitch = o.dividedPitch := rfl
@[simp] theorem Osc.setRun_phase (o : Osc) : o.setRun.phase = o.phase := rfl
@[simp] theorem Osc.setRun_dividedPhase (o : Osc) : o.setRun.dividedPhase = o.dividedPhase := rfl
@[simp] theorem Osc.setRun_divider (o : Osc) : o.setRun.divider = o.divider := rfl
@[simp] theorem Osc.setRun_dividerCount (o : Osc) : o.setRun.dividerCount = o.dividerCount := rfl
@[simp] theorem Osc.setRun_level (o : Osc) : o.setRun.level = o.level := rfl
@[simp] theorem Osc.setRun_initialPhase (o : Osc) : o.setRun.initialPhase = o.initialPhase := rfl
@[simp] theorem Osc.setRun_phaseIncrement (o : Osc) : o.setRun.phaseIncrement = o.phaseIncrement := rfl
@[simp] theorem Osc.setRun_run (o : Osc) : o.setRun.run = true := rfl
@[simp] theorem Osc.setRun_sampleOut (o : Osc) : o.setRun.sampleOut = o.sampleOut := rfl

@[simp] theorem Osc.clearRun_pitch (o : Osc) : o.clearRun.pitch = o.pitch := rfl
@[simp] theorem Osc.clearRun_dividedPitch (o : Osc) : o.clearRun.dividedPitch = o.dividedPitch := rfl
@[simp] theorem Osc.clearRun_phase (o : Osc) : o.clearRun.phase = o.phase := rfl
@[simp] theorem Osc.clearRun_dividedPhase (o : Osc) : o.clearRun.dividedPhase = o.dividedPhase := rfl
@[simp] theorem Osc.clearRun_divider (o : Osc) : o.clearRun.divider = o.divider := rfl
@[simp] theorem Osc.clearRun_dividerCount (o : Osc) : o.clearRun.dividerCount = o.dividerCount := rfl
@[simp] theorem Osc.clearRun_level (o : Osc) : o.clearRun.level = o.level := rfl
@[simp] theorem Osc.clearRun_initialPhase (o : Osc) : o.clearRun.initialPhase = o.initialPhase := rfl
@[simp] theorem Osc.clearRun_phaseIncrement (o : Osc) : o.clearRun.phaseIncrement = o.phaseIncrement := rfl
@[simp] theorem Osc.clearRun_run (o : Osc) : o.clearRun.run = false := rfl
@[simp] theorem Osc.clearRun_sampleOut (o : Osc) : o.clearRun.sampleOut = o.sampleOut := rfl

@[simp] theorem Osc.setDivider_pitch (o : Osc) (d : Word16) : (o.setDivider d).pitch = o.pitch := rfl
@[simp] theorem Osc.setDivider_dividedPitch (o : Osc) (d : Word16) :
    (o.setDivider d).dividedPitch = BitVec.ofInt 17 (dividedPitchOf o.pitch.toInt d.toNat) := rfl
@[simp] theorem Osc.setDivider_phase (o : Osc) (d : Word16) : (o.setDivider d).phase = o.phase := rfl
@[simp] theorem Osc.setDivider_dividedPhase (o : Osc) (d : Word16) : (o.setDivider d).dividedPhase = o.dividedPhase := rfl
@[simp] theorem Osc.setDivider_divider (o : Osc) (d : Word16) : (o.setDivider d).divider = d := rfl
@[simp] theorem Osc.setDivider_dividerCount (o : Osc) (d : Word16) : (o.setDivider d).dividerCount = o.dividerCount := rfl
@[simp] theorem Osc.setDivider_level (o : Osc) (d : Word16) : (o.setDivider d).level = o.level := rfl
@[simp] theorem Osc.setDivider_initialPhase (o : Osc) (d : Word16) : (o.setDivider d).initialPhase = o.initialPhase := rfl
@[simp] theorem Osc.setDivider_phaseIncrement (o : Osc) (d : Word16) : (o.setDivider d).phaseIncrement = o.phaseIncrement := rfl
@[simp] theorem Osc.setDivider_run (o : Osc) (d : Word16) : (o.setDivider d).run = o.run := rfl
@[simp] theorem Osc.setDivider_sampleOut (o : Osc) (d : Word16) : (o.setDivider d).sampleOut = o.sampleOut := rfl

@[simp] theorem Osc.setPitch_pitch (o : Osc) (rom : PitchRom) (imm : Word16) : (o.setPitch rom imm).pitch = imm := rfl
@[simp] theorem Osc.setPitch_dividedPitch (o : Osc) (rom : PitchRom) (imm : Word16) :
    (o.setPitch rom imm).dividedPitch = BitVec.ofInt 17 (dividedPitchOf imm.toInt o.divider.toNat) := rfl
@[simp] theorem Osc.setPitch_phase (o : Osc) (rom : PitchRom) (imm : Word16) : (o.setPitch rom imm).phase = o.phase := rfl
@[simp] theorem Osc.setPitch_dividedPhase (o : Osc) (rom : PitchRom) (imm : Word16) : (o.setPitch rom imm).dividedPhase = o.dividedPhase := rfl
@[simp] theorem Osc.setPitch_divider (o : Osc) (rom : PitchRom) (imm : Word16) : (o.setPitch rom imm).divider = o.divider := rfl
@[simp] theorem Osc.setPitch_dividerCount (o : Osc) (rom : PitchRom) (imm : Word16) : (o.setPitch rom imm).dividerCount = o.dividerCount := rfl
@[simp] theorem Osc.setPitch_level (o : Osc) (rom : PitchRom) (imm : Word16) : (o.setPitch rom imm).level = o.level := rfl
@[simp] theorem Osc.setPitch_initialPhase (o : Osc) (rom : PitchRom) (imm : Word16) : (o.setPitch rom imm).initialPhase = o.initialPhase := rfl
@[simp] theorem Osc.setPitch_phaseIncrement (o : Osc) (rom : PitchRom) (imm : Word16) :
    (o.setPitch rom imm).phaseIncrement = BitVec.ofInt 32 (computeIncrement rom imm.toInt) := rfl
@[simp] theorem Osc.setPitch_run (o : Osc) (rom : PitchRom) (imm : Word16) : (o.setPitch rom imm).run = o.run := rfl
@[simp] theorem Osc.setPitch_sampleOut (o : Osc) (rom : PitchRom) (imm : Word16) : (o.setPitch rom imm).sampleOut = o.sampleOut := rfl

@[simp] theorem Osc.advancePhase_pitch (o : Osc) : o.advancePhase.pitch = o.pitch := rfl
@[simp] theorem Osc.advancePhase_dividedPitch (o : Osc) : o.advancePhase.dividedPitch = o.dividedPitch := rfl
@[simp] theorem Osc.advancePhase_phase (o : Osc) : o.advancePhase.phase = o.phase + o.phaseIncrement := rfl
@[simp] theorem Osc.advancePhase_dividedPhase (o : Osc) : o.advancePhase.dividedPhase = o.dividedPhase := rfl
@[simp] theorem Osc.advancePhase_divider (o : Osc) : o.advancePhase.divider = o.divider := rfl
@[simp] theorem Osc.advancePhase_dividerCount (o : Osc) : o.advancePhase.dividerCount = o.dividerCount := rfl
@[simp] theorem Osc.advancePhase_level (o : Osc) : o.advancePhase.level = o.level := rfl
@[simp] theorem Osc.advancePhase_initialPhase (o : Osc) : o.advancePhase.initialPhase = o.initialPhase := rfl
@[simp] theorem Osc.advancePhase_phaseIncrement (o : Osc) : o.advancePhase.phaseIncrement = o.phaseIncrement := rfl
@[simp] theorem Osc.advancePhase_run (o : Osc) : o.advancePhase.run = o.run := rfl
@[simp] theorem Osc.advancePhase_sampleOut (o : Osc) : o.advancePhase.sampleOut = o.sampleOut := rfl

@[simp] theorem Osc.resetTiming_pitch (o : Osc) : o.resetTiming.pitch = o.pitch := rfl
@[simp] theorem Osc.resetTiming_dividedPitch (o : Osc) : o.resetTiming.dividedPitch = o.dividedPitch := rfl
@[simp] theorem Osc.resetTiming_phase (o : Osc) : o.resetTiming.phase = 0#32 := rfl
@[simp] theorem Osc.resetTiming_dividedPhase (o : Osc) : o.resetTiming.dividedPhase = 0#32 := rfl
@[simp] theorem Osc.resetTiming_divider (o : Osc) : o.resetTiming.divider = o.divider := rfl
@[simp] theorem Osc.resetTiming_dividerCount (o : Osc) : o.resetTiming.dividerCount = 0#16 := rfl
@[simp] theorem Osc.resetTiming_level (o : Osc) : o.resetTiming.level = o.level := rfl
@[simp] theorem Osc.resetTiming_initialPhase (o : Osc) : o.resetTiming.initialPhase = o.initialPhase := rfl
@[simp] theorem Osc.resetTiming_phaseIncrement (o : Osc) : o.resetTiming.phaseIncrement = o.phaseIncrement := rfl
@[simp] theorem Osc.resetTiming_run (o : Osc) : o.resetTiming.run = false := rfl
@[simp] theorem Osc.resetTiming_sampleOut (o : Osc) : o.resetTiming.sampleOut = o.sampleOut := rfl

theorem Osc.advancePhase_atBoundary (o : Osc) : o.advancePhase.atBoundary = o.atBoundary := rfl

@[simp] theorem Osc.tick_pitch (o : Osc) :
    o.tick.pitch = o.pitch := by
  unfold Osc.tick Osc.advanceDivider
  rw [Osc.advancePhase_atBoundary]
  split <;> simp_all

@[simp] theorem Osc.tick_dividedPitch (o : Osc) :
    o.tick.dividedPitch = o.dividedPitch := by
  unfold Osc.tick Osc.advanceDivider
  rw [Osc.advancePhase_atBoundary]
  split <;> simp_all

@[simp] theorem Osc.tick_phase (o : Osc) :
    o.tick.phase = o.phase + o.phaseIncrement := by
  unfold Osc.tick Osc.advanceDivider
  rw [Osc.advancePhase_atBoundary]
  split <;> simp_all

@[simp] theorem Osc.tick_dividedPhase (o : Osc) :
    o.tick.dividedPhase = if o.atBoundary then o.dividedPhase + o.phaseIncrement else o.dividedPhase := by
  unfold Osc.tick Osc.advanceDivider
  rw [Osc.advancePhase_atBoundary]
  split <;> simp_all

@[simp] theorem Osc.tick_divider (o : Osc) :
    o.tick.divider = o.divider := by
  unfold Osc.tick Osc.advanceDivider
  rw [Osc.advancePhase_atBoundary]
  split <;> simp_all

@[simp] theorem Osc.tick_dividerCount (o : Osc) :
    o.tick.dividerCount = if o.atBoundary then 0#16 else BitVec.ofNat 16 (o.dividerCount.toNat + 1) := by
  unfold Osc.tick Osc.advanceDivider
  rw [Osc.advancePhase_atBoundary]
  split <;> simp_all

@[simp] theorem Osc.tick_level (o : Osc) :
    o.tick.level = o.level := by
  unfold Osc.tick Osc.advanceDivider
  rw [Osc.advancePhase_atBoundary]
  split <;> simp_all

@[simp] theorem Osc.tick_initialPhase (o : Osc) :
    o.tick.initialPhase = o.initialPhase := by
  unfold Osc.tick Osc.advanceDivider
  rw [Osc.advancePhase_atBoundary]
  split <;> simp_all

@[simp] theorem Osc.tick_phaseIncrement (o : Osc) :
    o.tick.phaseIncrement = o.phaseIncrement := by
  unfold Osc.tick Osc.advanceDivider
  rw [Osc.advancePhase_atBoundary]
  split <;> simp_all

@[simp] theorem Osc.tick_run (o : Osc) :
    o.tick.run = true := by
  unfold Osc.tick Osc.advanceDivider
  rw [Osc.advancePhase_atBoundary]
  split <;> simp_all

@[simp] theorem Osc.tick_sampleOut (o : Osc) :
    o.tick.sampleOut = o.sampleOut := by
  unfold Osc.tick Osc.advanceDivider
  rw [Osc.advancePhase_atBoundary]
  split <;> simp_all

end Sys2Proof.Machine
end

