-- ==== Sys2Proof/Laws/Ops.lean ====
section
/-! SUPPORT. What the shared operations, one step and one run can do, said once. -/

namespace Sys2Proof.Machine

/-! The meaning of each command as a next state. -/

@[simp] theorem exec_nop (s : State) : exec .nop s = .next s := rfl
@[simp] theorem exec_setpitch (imm : Word16) (s : State) :
    exec (.setpitch imm) s = .next (s.withOsc (s.osc.setPitch Config.defaultRoms.pitchRom imm)) := rfl
@[simp] theorem exec_setdiv (imm : Word16) (s : State) :
    exec (.setdiv imm) s = .next (s.withOsc (s.osc.setDivider (dividerOf imm))) := rfl
@[simp] theorem exec_setlevel (imm : Word16) (s : State) :
    exec (.setlevel imm) s = .next (s.withOsc { s.osc with level := imm }) := rfl
@[simp] theorem exec_setphase (imm : Word32) (s : State) :
    exec (.setphase imm) s = .next (s.withOsc { s.osc with initialPhase := imm }) := rfl
@[simp] theorem exec_reset (s : State) : exec .reset s = .next (s.withOsc s.osc.resetTiming) := rfl
@[simp] theorem exec_tick (s : State) : exec .tick s = .next (s.withOsc s.osc.tick) := rfl
@[simp] theorem exec_render (sel : BitVec 3) (s : State) :
    exec (.render sel) s =
      .next (s.showSample (BitVec.ofInt 16 (renderSample Config.defaultRoms.sineRom s.build (shapeOf sel) s.osc))) := rfl
@[simp] theorem exec_read (rsel : BitVec 4) (s : State) :
    exec (.read rsel) s = .next (s.respondData (readRegister s.osc rsel)) := rfl
@[simp] theorem exec_reserved9 (s : State) : exec .reserved9 s = .next s := rfl
@[simp] theorem exec_reservedA (s : State) : exec .reservedA s = .next s := rfl
@[simp] theorem exec_reservedB (s : State) : exec .reservedB s = .next s := rfl
@[simp] theorem exec_reservedC (s : State) : exec .reservedC s = .next s := rfl
@[simp] theorem exec_reservedD (s : State) : exec .reservedD s = .next s := rfl
@[simp] theorem exec_reservedE (s : State) : exec .reservedE s = .next s := rfl
@[simp] theorem exec_reservedF (s : State) : exec .reservedF s = .next s := rfl

/-! The same over given ROM contents. -/

@[simp] theorem execWith_nop (roms : Roms) (s : State) : execWith roms .nop s = .next s := rfl
@[simp] theorem execWith_setpitch (roms : Roms) (imm : Word16) (s : State) :
    execWith roms (.setpitch imm) s = .next (s.withOsc (s.osc.setPitch roms.pitchRom imm)) := rfl
@[simp] theorem execWith_setdiv (roms : Roms) (imm : Word16) (s : State) :
    execWith roms (.setdiv imm) s = .next (s.withOsc (s.osc.setDivider (dividerOf imm))) := rfl
@[simp] theorem execWith_setlevel (roms : Roms) (imm : Word16) (s : State) :
    execWith roms (.setlevel imm) s = .next (s.withOsc { s.osc with level := imm }) := rfl
@[simp] theorem execWith_setphase (roms : Roms) (imm : Word32) (s : State) :
    execWith roms (.setphase imm) s = .next (s.withOsc { s.osc with initialPhase := imm }) := rfl
@[simp] theorem execWith_reset (roms : Roms) (s : State) : execWith roms .reset s = .next (s.withOsc s.osc.resetTiming) := rfl
@[simp] theorem execWith_tick (roms : Roms) (s : State) : execWith roms .tick s = .next (s.withOsc s.osc.tick) := rfl
@[simp] theorem execWith_render (roms : Roms) (sel : BitVec 3) (s : State) :
    execWith roms (.render sel) s =
      .next (s.showSample (BitVec.ofInt 16 (renderSample roms.sineRom s.build (shapeOf sel) s.osc))) := rfl
@[simp] theorem execWith_read (roms : Roms) (rsel : BitVec 4) (s : State) :
    execWith roms (.read rsel) s = .next (s.respondData (readRegister s.osc rsel)) := rfl
@[simp] theorem execWith_reserved9 (roms : Roms) (s : State) : execWith roms .reserved9 s = .next s := rfl
@[simp] theorem execWith_reservedA (roms : Roms) (s : State) : execWith roms .reservedA s = .next s := rfl
@[simp] theorem execWith_reservedB (roms : Roms) (s : State) : execWith roms .reservedB s = .next s := rfl
@[simp] theorem execWith_reservedC (roms : Roms) (s : State) : execWith roms .reservedC s = .next s := rfl
@[simp] theorem execWith_reservedD (roms : Roms) (s : State) : execWith roms .reservedD s = .next s := rfl
@[simp] theorem execWith_reservedE (roms : Roms) (s : State) : execWith roms .reservedE s = .next s := rfl
@[simp] theorem execWith_reservedF (roms : Roms) (s : State) : execWith roms .reservedF s = .next s := rfl

/-- Every command completes, and touches neither the build, the stream nor the index. -/
theorem exec_completes (i : Instr) (s : State) :
    ∃ t, exec i s = .next t ∧ t.build = s.build ∧ t.pending = s.pending ∧ t.index = s.index := by
  cases i <;> exact ⟨_, rfl, rfl, rfl, rfl⟩

/-- What a step can do: hold its state with no command presented, or execute the command accepted. -/
theorem step_cases {s t : State} (h : step s = .next t) :
    (s.pending = [] ∧ t = s.idle) ∨
      ∃ w rest, s.pending = w :: rest ∧ exec (decode w) (s.accept rest) = .next t := by
  unfold step at h
  split at h
  · next hp => exact .inl ⟨hp, by cases h; rfl⟩
  · next w rest hp => exact .inr ⟨w, rest, hp, h⟩

theorem step_nil {s : State} (h : s.pending = []) : step s = .next s.idle := by
  simp [step, h]

theorem step_cons {s : State} {w : CommandWord} {rest : List CommandWord} (h : s.pending = w :: rest) :
    step s = exec (decode w) (s.accept rest) := by
  simp [step, h]

/-- Every command completes over every ROM contents, and touches neither the build, the stream nor the index. -/
theorem execWith_completes (roms : Roms) (i : Instr) (s : State) :
    ∃ t, execWith roms i s = .next t ∧ t.build = s.build ∧ t.pending = s.pending ∧ t.index = s.index := by
  cases i <;> exact ⟨_, rfl, rfl, rfl, rfl⟩

/-- What a step over given ROM contents can do. -/
theorem stepWith_cases {roms : Roms} {s t : State} (h : stepWith roms s = .next t) :
    (s.pending = [] ∧ t = s.idle) ∨
      ∃ w rest, s.pending = w :: rest ∧ execWith roms (decode w) (s.accept rest) = .next t := by
  unfold stepWith at h
  split at h
  · next hp => exact .inl ⟨hp, by cases h; rfl⟩
  · next w rest hp => exact .inr ⟨w, rest, hp, h⟩

theorem stepWith_nil {roms : Roms} {s : State} (h : s.pending = []) : stepWith roms s = .next s.idle := by
  simp [stepWith, h]

theorem stepWith_cons {roms : Roms} {s : State} {w : CommandWord} {rest : List CommandWord} (h : s.pending = w :: rest) :
    stepWith roms s = execWith roms (decode w) (s.accept rest) := by
  simp [stepWith, h]

@[simp] theorem runStream_nil (roms : Roms) (s : State) : runStream roms [] s = .next { s with pending := [] } := rfl

/-- The run of a stream is the step on its first command, then the run of the rest from there. -/
theorem runStream_cons {roms : Roms} {w : CommandWord} {ws : List CommandWord} {s t : State}
    (h : execWith roms (decode w) (State.accept { s with pending := w :: ws } ws) = .next t) :
    runStream roms (w :: ws) s = runStream roms ws t := by
  obtain ⟨u, hu, -, hp, -⟩ := execWith_completes roms (decode w) (State.accept { s with pending := w :: ws } ws)
  have htu : t = u := by
    have := h.symm.trans hu
    injection this
  subst htu
  have hw : ({ t with pending := ws } : State) = t := by
    have hp' : t.pending = ws := hp
    rw [← hp']
  show Host.Core.run (coreWith roms Config.defaultBuild) (ws.length + 1) { s with pending := w :: ws } = _
  have hs : (coreWith roms Config.defaultBuild).step { s with pending := w :: ws } = .next t := h
  simp only [Host.Core.run, hs, runStream, hw]

/-! Reading a ROM is reading its list of entries at the index. -/

theorem readPitchRom_eq_getD (rom : PitchRom) (i : Fin 13) :
    readPitchRom rom i = (((rom.entries.map BitVec.toNat).getD i.val 0 : Nat) : Int) := by
  unfold readPitchRom
  rw [List.getD_eq_getElem _ _ (by rw [List.length_map, rom.size]; exact i.isLt), List.getElem_map]

theorem readSineRom_eq_getD (rom : SineRom) (i : Fin 257) :
    readSineRom rom i = (rom.entries.map BitVec.toInt).getD i.val 0 := by
  unfold readSineRom
  rw [List.getD_eq_getElem _ _ (by rw [List.length_map, rom.size]; exact i.isLt), List.getElem_map]

/-! The integer operators. -/

theorem shr_eq_ediv (a : Int) (k : Nat) : shr a k = a / 2 ^ k := by
  unfold shr
  exact Int.fdiv_eq_ediv_of_nonneg _ (by positivity)

theorem clamp_eq_max_min (v lo hi : Int) (h : lo ≤ hi) : clamp v lo hi = max lo (min hi v) := by
  unfold clamp
  split
  · omega
  · split <;> omega

theorem clamp_range (v lo hi : Int) (h : lo ≤ hi) : lo ≤ clamp v lo hi ∧ clamp v lo hi ≤ hi := by
  rw [clamp_eq_max_min v lo hi h]
  omega

theorem octaveOf_eq_ediv (pc : Int) : octaveOf pc = pc / 1536 := by
  unfold octaveOf Config.octave
  exact Int.fdiv_eq_ediv_of_nonneg _ (by decide)

theorem fracOf_eq_emod (pc : Int) : (fracOf pc : Int) = pc % 1536 := by
  unfold fracOf
  rw [octaveOf_eq_ediv]
  unfold Config.octave
  omega

theorem semitoneOf_eq_ediv (pc : Int) : ((semitoneOf pc).val : Int) = pc % 1536 / 128 := by
  have h := fracOf_eq_emod pc
  show ((fracOf pc / Config.semitone : Nat) : Int) = _
  unfold Config.semitone
  omega

theorem subOf_eq_emod (pc : Int) : (subOf pc : Int) = pc % 128 := by
  have h := fracOf_eq_emod pc
  unfold subOf Config.semitone
  omega

end Sys2Proof.Machine
end

