-- ==== Sys2Proof/Laws/PerInstr.lean ====
section
/-! SUPPORT. The per-command family of LAWS.json: a command's canonical word belongs to the command's own row of the opcode table
(30_encoding.md R72). -/

namespace Sys2Proof.Laws

theorem assembleWord_mask (opcode : BitVec 4) (operand : Word32) :
    assembleWord opcode operand &&& 0xF00000000#36 = assembleWord opcode 0#32 := by
  unfold assembleWord
  rw [show (0xF00000000#36) = (0xF#4 ++ 0#32 : BitVec 36) from rfl, BitVec.and_append,
    show (0xF#4) = BitVec.allOnes 4 from rfl, BitVec.and_allOnes, BitVec.and_zero]

end Sys2Proof.Laws

namespace Sys2Proof.Laws.EncodesInItsRow

/-- The canonical word of the command is one of the words its own row of the table accepts. -/
def Statement (i : Instr) : Prop :=
  ∃ r ∈ opcodeTable, r.mnemonic = i.mnemonic ∧ r.accepts (encode i) = true

theorem nop : Statement .nop :=
  ⟨opcodeTable[0], by simp [opcodeTable], rfl, by
    simp [OpcodeRow.accepts, opcodeTable, encode, assembleWord_mask]; rfl⟩

theorem setpitch (imm : Word16) : Statement (.setpitch imm) :=
  ⟨opcodeTable[1], by simp [opcodeTable], rfl, by
    simp [OpcodeRow.accepts, opcodeTable, encode, assembleWord_mask]; rfl⟩

theorem setdiv (imm : Word16) : Statement (.setdiv imm) :=
  ⟨opcodeTable[2], by simp [opcodeTable], rfl, by
    simp [OpcodeRow.accepts, opcodeTable, encode, assembleWord_mask]; rfl⟩

theorem setlevel (imm : Word16) : Statement (.setlevel imm) :=
  ⟨opcodeTable[3], by simp [opcodeTable], rfl, by
    simp [OpcodeRow.accepts, opcodeTable, encode, assembleWord_mask]; rfl⟩

theorem setphase (imm : Word32) : Statement (.setphase imm) :=
  ⟨opcodeTable[4], by simp [opcodeTable], rfl, by
    simp [OpcodeRow.accepts, opcodeTable, encode, assembleWord_mask]; rfl⟩

theorem reset : Statement .reset :=
  ⟨opcodeTable[5], by simp [opcodeTable], rfl, by
    simp [OpcodeRow.accepts, opcodeTable, encode, assembleWord_mask]; rfl⟩

theorem tick : Statement .tick :=
  ⟨opcodeTable[6], by simp [opcodeTable], rfl, by
    simp [OpcodeRow.accepts, opcodeTable, encode, assembleWord_mask]; rfl⟩

theorem render (sel : BitVec 3) : Statement (.render sel) :=
  ⟨opcodeTable[7], by simp [opcodeTable], rfl, by
    simp [OpcodeRow.accepts, opcodeTable, encode, assembleWord_mask]; rfl⟩

theorem read (rsel : BitVec 4) : Statement (.read rsel) :=
  ⟨opcodeTable[8], by simp [opcodeTable], rfl, by
    simp [OpcodeRow.accepts, opcodeTable, encode, assembleWord_mask]; rfl⟩

theorem reserved9 : Statement .reserved9 :=
  ⟨opcodeTable[9], by simp [opcodeTable], rfl, by
    simp [OpcodeRow.accepts, opcodeTable, encode, assembleWord_mask]; rfl⟩

theorem reservedA : Statement .reservedA :=
  ⟨opcodeTable[10], by simp [opcodeTable], rfl, by
    simp [OpcodeRow.accepts, opcodeTable, encode, assembleWord_mask]; rfl⟩

theorem reservedB : Statement .reservedB :=
  ⟨opcodeTable[11], by simp [opcodeTable], rfl, by
    simp [OpcodeRow.accepts, opcodeTable, encode, assembleWord_mask]; rfl⟩

theorem reservedC : Statement .reservedC :=
  ⟨opcodeTable[12], by simp [opcodeTable], rfl, by
    simp [OpcodeRow.accepts, opcodeTable, encode, assembleWord_mask]; rfl⟩

theorem reservedD : Statement .reservedD :=
  ⟨opcodeTable[13], by simp [opcodeTable], rfl, by
    simp [OpcodeRow.accepts, opcodeTable, encode, assembleWord_mask]; rfl⟩

theorem reservedE : Statement .reservedE :=
  ⟨opcodeTable[14], by simp [opcodeTable], rfl, by
    simp [OpcodeRow.accepts, opcodeTable, encode, assembleWord_mask]; rfl⟩

theorem reservedF : Statement .reservedF :=
  ⟨opcodeTable[15], by simp [opcodeTable], rfl, by
    simp [OpcodeRow.accepts, opcodeTable, encode, assembleWord_mask]; rfl⟩

end Sys2Proof.Laws.EncodesInItsRow
end

