-- ==== Sys2Proof/Tests/Slice0.lean ====
section
/-! SUPPORT. The model's own tests: words written out from the spec's encodings, the refusals of the well-formedness check, worked
examples of the rules and rows of 95_test_vectors.md, and for each statement with hypotheses a concrete case that meets them,
with a boundary case for each clause of a range. Every expected value is the spec's. -/

namespace Sys2Proof.Tests

open Sys2Proof.Machine

/-- The next state of an outcome. -/
def after (o : Host.Outcome State Fault Refusal) : Option State :=
  match o with
  | .next t => some t
  | .fault _ => none
  | .refused _ => none

/-- A register, or any view, of the next state. -/
def seen {α : Type} (o : Host.Outcome State Fault Refusal) (view : State → α) : Option α := (after o).map view

/-- The power-on state with its registers changed. -/
def stateWith (change : Osc → Osc) : State := { State.reset with osc := change State.reset.osc }

/-! Decoding: one word of each row, from R70 to R77 and the table of 95_test_vectors.md section 2.1. -/

theorem test_decode_nop : decode 0x0DEADBEEF#36 = .nop := by decide
theorem test_decode_setpitch_negative : decode 0x10000EC12#36 = .setpitch (BitVec.ofInt 16 (-5102)) := by decide
theorem test_decode_setpitch_ignores_upper_bits : decode 0x1FFFF13EE#36 = .setpitch 5102#16 := by decide
theorem test_decode_setdiv : decode 0x2ABCD0003#36 = .setdiv 3#16 := by decide
theorem test_decode_setlevel : decode 0x30000FFFF#36 = .setlevel 65535#16 := by decide
theorem test_decode_setphase_uses_every_bit : decode 0x4C0000001#36 = .setphase 0xC0000001#32 := by decide
theorem test_decode_reset : decode 0x5FFFFFFFF#36 = .reset := by decide
theorem test_decode_tick : decode 0x600000000#36 = .tick := by decide
theorem test_decode_render_saw : decode 0x700000004#36 = .render 4#3 := by decide
theorem test_decode_render_unrecognised : decode 0x700000006#36 = .render 0#3 := by decide
theorem test_decode_read : decode 0x8000000F2#36 = .read 2#4 := by decide
theorem test_decode_reserved9 : decode 0x900000000#36 = .reserved9 := by decide
theorem test_decode_reservedA : decode 0xA00000000#36 = .reservedA := by decide
theorem test_decode_reservedB : decode 0xB00000000#36 = .reservedB := by decide
theorem test_decode_reservedC : decode 0xC12345678#36 = .reservedC := by decide
theorem test_decode_reservedD : decode 0xD00000000#36 = .reservedD := by decide
theorem test_decode_reservedE : decode 0xE00000000#36 = .reservedE := by decide
theorem test_decode_reservedF : decode 0xFFFFFFFFF#36 = .reservedF := by decide
theorem test_encode_setpitch : encode (.setpitch (BitVec.ofInt 16 (-5102))) = 0x10000EC12#36 := by decide
theorem test_encode_render : encode (.render 3#3) = 0x700000003#36 := by decide

/-- The table's number of a word is the word on the port (bit 35 is the opcode's top bit). -/
theorem test_decodeTableWord : decodeTableWord 40 0x800000002 = some (.read 2#4) := by decide

/-! The well-formedness check refuses each selector that is no shape. -/

theorem test_selector5_illFormed : (Instr.render 5#3).wellFormed = false := by decide
theorem test_selector6_illFormed : (Instr.render 6#3).wellFormed = false := by decide
theorem test_selector7_illFormed : (Instr.render 7#3).wellFormed = false := by decide

/-! The rules' worked examples and corner cases, one step each. -/

theorem test_nop_keeps_state : seen (exec .nop (stateWith fun o => { o with phase := 9#32 })) (·.osc.phase) = some 9#32 := by
  decide

/-- R109: with `divider = 4`, `SETPITCH -5102` gives `dividedPitch = -8174`, `phaseIncrement = 4296778`. -/
theorem test_setpitch_worked_example :
    seen (exec (.setpitch 0xEC12#16) (stateWith fun o => { o with divider := 4#16 }))
      (fun t => (t.osc.pitch.toInt, t.osc.dividedPitch.toInt, t.osc.phaseIncrement.toNat)) =
      some (-5102, -8174, 4296778) := by decide

/-- R109: `imm16 = 0x8000` stores -32768 unclamped, with the saturated increment. -/
theorem test_setpitch_saturates :
    seen (exec (.setpitch 0x8000#16) State.reset) (fun t => (t.osc.pitch.toInt, t.osc.phaseIncrement.toNat)) =
      some (-32768, 20971) := by decide

/-- ROMs of equal entries, 1000 and 100 (R6: the ROM contents are arguments). -/
def flatRoms : Roms where
  pitchRom := { entries := List.replicate 13 1000#31, size := List.length_replicate }
  sineRom := { entries := List.replicate 257 100#16, size := List.length_replicate }

/-- R104 over a given pitch ROM: without a slope every code of the top octave gives the entry. -/
theorem test_setpitch_reads_the_given_rom :
    seen (execWith flatRoms (.setpitch 7000#16) State.reset) (·.osc.phaseIncrement) = some 1000#32 := by decide

/-- R165 and R168 over a given sine ROM: 100 at level 65535 is 99. -/
theorem test_render_reads_the_given_rom :
    seen (execWith flatRoms (.render 0#3) (stateWith fun o => { o with level := 65535#16, dividedPhase := 0xDEADBEEF#32 }))
      (·.osc.sampleOut) = some 99#16 := by decide

/-- R124: with `pitch = 0`, `SETDIV 8` gives `dividedPitch = -4608`; `SETDIV 0` stores 1. -/
theorem test_setdiv_worked_example :
    seen (exec (.setdiv 8#16) State.reset) (fun t => (t.osc.divider, t.osc.dividedPitch.toInt)) = some (8#16, -4608) := by
  decide
theorem test_setdiv_zero :
    seen (exec (.setdiv 0#16) (stateWith fun o => { o with dividerCount := 7#16 }))
      (fun t => (t.osc.divider, t.osc.dividerCount)) = some (1#16, 7#16) := by decide

theorem test_setlevel : seen (exec (.setlevel 0x8000#16) State.reset) (·.osc.level) = some 32768#16 := by decide
theorem test_setphase :
    seen (exec (.setphase 0x40000000#32) State.reset) (fun t => (t.osc.initialPhase, t.osc.phase, t.osc.run)) =
      some (0x40000000#32, 0#32, false) := by decide

/-- R140: the worked example, with the configuration kept. -/
theorem test_reset_worked_example :
    seen (exec .reset (stateWith fun o => { o with
        phase := 0x12345678#32, dividedPhase := 0x00ABCDEF#32, dividerCount := 2#16, run := true, level := 5#16 }))
      (fun t => (t.osc.phase, t.osc.dividedPhase, t.osc.dividerCount, t.osc.run, t.osc.level)) =
      some (0#32, 0#32, 0#16, false, 5#16) := by decide

/-- R138: the worked example from power-on. -/
theorem test_tick_worked_example :
    seen (exec .tick State.reset) (fun t => (t.osc.phase, t.osc.dividedPhase, t.osc.dividerCount, t.osc.run)) =
      some (0x028F5C28#32, 0x028F5C28#32, 0#16, true) := by decide

/-- 95_test_vectors.md P3, command 10: the phase wraps; with the count at 1 of 5 the divided phase stays. -/
theorem test_tick_wraps :
    seen (exec .tick (stateWith fun o => { o with
        phase := 0xF5A6F91B#32, phaseIncrement := 0x51E25309#32, divider := 5#16, dividerCount := 1#16 }))
      (fun t => (t.osc.phase, t.osc.dividedPhase, t.osc.dividerCount)) = some (0x47894C24#32, 0#32, 2#16) := by decide

/-- R169: `dividedPhase = 0x3FFFFFE8`, level 65535, `RENDER TRI` gives 32766. -/
theorem test_render_worked_example :
    seen (exec (.render 1#3) (stateWith fun o => { o with dividedPhase := 0x3FFFFFE8#32, level := 65535#16 }))
      (fun t => (t.samplePort.toInt, t.ports.sampleValid, t.responses)) =
      some (32766, true, [.sample 32766#16]) := by decide

/-- 95_test_vectors.md V-R1: with `RENDER_SRC = MAIN` the sine of the main phase. -/
theorem test_render_main_source :
    seen (exec (.render 0#3) { (stateWith fun o => { o with
        phase := 0x7AE147AD#32, dividedPhase := 0x28F5C28F#32, level := 65535#16 }) with
        build := { Config.defaultBuild with renderSrc := .main } }) (fun t => t.osc.sampleOut.toInt) = some 4105 := by decide

/-- R191: a negative `pitch` reads sign-extended, a `dividedPitch` of -55808 as 0xFFFF2600. -/
theorem test_read_pitch :
    seen (exec (.read 0#4) (stateWith fun o => { o with pitch := 0xEC12#16 })) (·.rdataPort) = some 0xFFFFEC12#32 := by
  decide
theorem test_read_dividedPitch :
    seen (exec (.read 1#4) (stateWith fun o => { o with dividedPitch := BitVec.ofInt 17 (-55808) })) (·.rdataPort) =
      some 0xFFFF2600#32 := by decide

theorem test_reserved_keep_state :
    [exec .reserved9 State.reset, exec .reservedA State.reset, exec .reservedB State.reset, exec .reservedC State.reset,
      exec .reservedD State.reset, exec .reservedE State.reset, exec .reservedF State.reset].map after =
      List.replicate 7 (some State.reset) := rfl

/-- A step accepts the word presented first; the one after it waits (R34). -/
theorem test_step_accepts_one :
    seen (step ((State.reset.present [0x600000000#36]).withFetchWord 40 0x30000FFFF))
      (fun t => (t.osc.level, t.osc.phase, t.index, t.pending)) =
      some (65535#16, 0#32, 1, [0x600000000#36]) := by decide

/-- With no command presented the registers hold (R251). -/
theorem test_step_idle : after (step State.reset) = some State.reset := rfl

/-- 95_test_vectors.md P5: schedules B and C differ in the sample. -/
theorem test_schedules :
    [mergeStreams [.tick, .config, .tick] [0x600000000#36, 0x700000004#36] [0x30000FFFF#36],
      mergeStreams [.tick, .tick, .config] [0x600000000#36, 0x700000004#36] [0x30000FFFF#36]] =
      [some [0x600000000#36, 0x30000FFFF#36, 0x700000004#36],
       some [0x600000000#36, 0x700000004#36, 0x30000FFFF#36]] := by decide

theorem test_assemble_program :
    assemble ["SETPITCH PITCH_1HZ".toList, "  ; a comment".toList, "READ DIVPHASE".toList] =
      some [0x10000EC12#36, 0x800000003#36] := by decide
theorem test_assemble_refuses_out_of_range : assembleLine "SETDIV 65536".toList = none := by decide

/-! Waveform values at the borders of each clause (95_test_vectors.md section 2.5 and R160 to R166). -/

theorem test_ramp_borders :
    [0x0000FFFF#32, 0x00010000#32, 0x7FFFFFFF#32, 0x80000000#32, 0x8000FFFF#32, 0x80010000#32, 0xFFFEFFFF#32,
      0xFFFF0000#32].map rampWave = [-32768, -32767, -1, 0, 0, 1, 32766, 32767] := by decide
theorem test_saw_borders :
    [0x0000FFFF#32, 0x00010000#32, 0x7FFEFFFF#32, 0x7FFF0000#32, 0x7FFFFFFF#32, 0x80000000#32, 0x8000FFFF#32,
      0x80010000#32, 0xFFFF0000#32].map sawWave = [32767, 32766, 1, 0, 0, -1, -1, -2, -32768] := by decide
theorem test_triangle_borders :
    [0x00007FFF#32, 0x00008000#32, 0x3FFF7FFF#32, 0x3FFF8000#32, 0x40007FFF#32, 0x40008000#32, 0x7FFF8000#32,
      0x7FFFFFFF#32, 0x80000000#32, 0x80007FFF#32, 0xBFFF7FFF#32, 0xBFFF8000#32, 0xC0007FFF#32, 0xC0008000#32,
      0xFFFF8000#32].map triangleWave =
      [0, 1, 32766, 32767, 32767, 32766, 0, 0, -1, -1, -32767, -32768, -32768, -32767, -1] := by decide
theorem test_trapezoid_borders :
    [0x1FFFFFFF#32, 0x20000000#32, 0x5FFFFFFF#32, 0x60000000#32, 0x9FFF7FFF#32, 0x9FFF8000#32, 0xE0007FFF#32,
      0xE0008000#32].map (trapezoidWave 1) = [32766, 32767, 32767, 32766, -32766, -32768, -32768, -32766] := by decide
theorem test_trapezoid_square :
    [0x00000000#32, 0x00008000#32, 0x80000000#32].map (trapezoidWave 15) = [0, 32767, -32768] := by decide
theorem test_sine_borders :
    [0x000051FF#32, 0x00005200#32, 0x3FFFFFFF#32, 0x40000000#32, 0x400000FF#32, 0x40000100#32, 0x800000FF#32,
      0x80000100#32, 0xBFFFFF00#32, 0xC00000FF#32, 0xDEADBEEF#32].map (sineWave Config.sineRom) =
      [0, 1, 32766, 32767, 32767, 32766, 0, -1, -32767, -32767, -23908] := by decide
theorem test_scale_truncates :
    [scaleWave (-1) 65535, scaleWave (-3) 32768, scaleWave 3 32768, scaleWave (-32768) 65535, scaleWave 32767 65535] =
      [0, -1, 1, -32767, 32766] := by decide
theorem test_increment_borders :
    [-16897, -16896, -16895, -1537, -1, 0, 200, 6143, 7678, 7679, 7680].map (computeIncrement Config.pitchRom) =
      [20971, 20971, 20981, 21465420, 42930840, 42949672, 47025597, 686893444, 1373184244, 1373786889, 1373786889] := by
  decide
theorem test_ilog2_borders : [1, 2, 3, 4, 7, 8, 32767, 32768, 65535].map ilog2 = [0, 1, 1, 2, 2, 3, 14, 15, 15] := by decide

/-! For each statement with hypotheses, a concrete case that meets all of them together. -/

/-- A Running state in the middle of a window of three ticks, at full level, with a command presented. -/
def midWindow : State :=
  { stateWith (fun o => { o with
      divider := 3#16, dividedPitch := BitVec.ofInt 17 (-1536), dividerCount := 2#16, phase := 0x051EB850#32, run := true,
      level := 65535#16 }) with pending := [0x600000000#36, 0x700000001#36] }

/-- An Idle state that is not the reset state. -/
def idleAtFullLevel : State := stateWith fun o => { o with level := 65535#16 }

theorem midWindow_inv : midWindow.Inv :=
  ⟨by decide, by decide, by decide, by decide, by decide, by decide, by decide⟩

theorem idleAtFullLevel_inv : idleAtFullLevel.Inv ∧ idleAtFullLevel.osc.run = false :=
  ⟨⟨by decide, by decide, by decide, by decide, by decide, by decide, by decide⟩, rfl⟩

/-- DecodeUndoesEncode, at the last well-formed selector. -/
theorem witness_wellFormed : (Instr.render 4#3).wellFormed = true ∧ (Instr.setpitch 0x8000#16).wellFormed = true := by decide

/-- DecodedCommandsAreWellFormed and RenderWritesTheScaledWave: a selector on each side of 4. -/
theorem witness_selector_clauses :
    (0x700000004#36 : CommandWord).toNat / 2 ^ 32 = 7 ∧ (0x700000004#36 : CommandWord).toNat % 8 ≤ 4 ∧
      (0x700000005#36 : CommandWord).toNat / 2 ^ 32 = 7 ∧ 4 < (0x700000005#36 : CommandWord).toNat % 8 := by decide

/-- IgnoredBitsHaveNoEffect: two words of the row of `SETPITCH`. -/
theorem witness_ignored_bits :
    opcodeTable[1] ∈ opcodeTable ∧ opcodeTable[1].accepts 0x10000EC12#36 = true ∧
      0x10000EC12#36 &&& opcodeTable[1].used = 0x1ABCDEC12#36 &&& opcodeTable[1].used := by decide

/-- The words of each opcode, for the decoding clauses of the statements about one command. -/
theorem witness_opcodes :
    [0x0DEADBEEF#36, 0x10000EC12#36, 0x200000000#36, 0x30000FFFF#36, 0x4C0000000#36, 0x500000000#36, 0x600000000#36,
      0x7FFFFFFF9#36, 0x80000000F#36].map (fun w : CommandWord => w.toNat / 2 ^ 32) = [0, 1, 2, 3, 4, 5, 6, 7, 8] := by
  decide

/-- ReservedOpcodesExecuteAsNop: the first and the last reserved opcode presented. -/
theorem witness_reserved :
    9 ≤ (0x900000000#36 : CommandWord).toNat / 2 ^ 32 ∧ 9 ≤ (0xFFFFFFFFF#36 : CommandWord).toNat / 2 ^ 32 ∧
      (State.reset.present [0x900000000#36]).pending = 0x900000000#36 :: [] ∧
      (State.reset.present [0xFFFFFFFFF#36]).pending = 0xFFFFFFFFF#36 :: [] := by decide

/-- SetlevelWritesLevelAlone: a state with level 0. -/
theorem witness_level_zero : State.reset.osc.level = 0#16 := by decide

/-- ReadReturnsTheSelectedRegister: the values of each clause, at 0 to 10 and at both ends of 11 to 15. -/
theorem witness_read_clauses :
    [0#4, 1#4, 2#4, 3#4, 4#4, 5#4, 6#4, 7#4, 8#4, 9#4, 10#4, 11#4, 15#4].map
      (fun r => (readRegister midWindow.osc r).toNat) =
      [0, 0xFFFFFA00, 0x051EB850, 0, 3, 2, 65535, 0, 42949672, 1, 0, 0, 0] ∧
      11 ≤ (11#4 : BitVec 4).toNat ∧ 11 ≤ (15#4 : BitVec 4).toNat := by decide

/-- StepRunsTheDecodedCommand and PulsesMarkRenderAndRead: a word presented, and none. -/
theorem witness_presented :
    midWindow.pending = 0x600000000#36 :: [0x700000001#36] ∧ (decode 0x600000000#36).wellFormed = true ∧
      State.reset.pending = [] := by decide

/-- The mapper's statements: both ends of each range. -/
theorem witness_mapper_ranges :
    (-16896 : Int) ≤ -16896 ∧ (7679 : Int) ≤ 7679 ∧ (-16896 : Int) ≤ 7679 ∧
      (-16896 : Int) ≤ -16896 ∧ (-16896 : Int) + 1536 ≤ 7679 ∧ (-16896 : Int) ≤ 6143 ∧ (6143 : Int) + 1536 ≤ 7679 := by decide

/-- RomContentsKeepTheirShape: indices that meet the equations, at the end of the range. -/
theorem witness_rom_indices :
    (128 : Fin 257).val = (128 : Fin 129).val ∧ (128 : Fin 257).val = 256 - (128 : Fin 129).val ∧
      (0 : Fin 257).val = 128 - (128 : Fin 129).val ∧ (256 : Fin 257).val = 128 + (128 : Fin 129).val := by decide

/-- HalvingsCountTheHighestSetBit and DividedPitchFitsItsRegister: both ends of the range of a divider. -/
theorem witness_divider_range : (1 ≤ 1 ∧ 1 ≤ 65535) ∧ 1 ≤ 65535 ∧ 65535 ≤ 65535 := by decide

/-- LoweredDividerMakesTheNextTickABoundary: a new divider equal to the count, and one of 1. -/
theorem witness_lowered_divider :
    1 ≤ (2#16 : Word16).toNat ∧ (2#16 : Word16).toNat ≤ midWindow.osc.dividerCount.toNat ∧
      1 ≤ (1#16 : Word16).toNat ∧ (1#16 : Word16).toNat ≤ midWindow.osc.dividerCount.toNat := by decide

/-- RaisedDividerStretchesTheWindow: one tick before the boundary tick, and the boundary tick. -/
theorem witness_raised_divider :
    midWindow.osc.dividerCount.toNat < (5#16 : Word16).toNat ∧
      2 ≤ (5#16 : Word16).toNat - midWindow.osc.dividerCount.toNat ∧
      2 < (5#16 : Word16).toNat - midWindow.osc.dividerCount.toNat ∧
      3 = (5#16 : Word16).toNat - midWindow.osc.dividerCount.toNat := by decide

/-- CountStaysInItsWindowUntilSetdiv: a state in its window, and a command of each clause that completes. -/
theorem witness_count_in_window :
    1 ≤ midWindow.osc.divider.toNat ∧ midWindow.osc.dividerCount.toNat < midWindow.osc.divider.toNat ∧
      (after (exec .tick midWindow)).isSome = true ∧ (after (exec .reset midWindow)).isSome = true ∧
      isSetdiv (.setpitch 0#16) = false ∧ (after (exec (.setpitch 0#16) midWindow)).isSome = true := by decide

/-- PhaseIsTicksTimesIncrement: a stream with two ticks and other commands between them. -/
theorem witness_stream_of_ticks :
    (∀ w ∈ ([0x600000000#36, 0x200000003#36, 0x700000001#36, 0x600000000#36] : List CommandWord),
      decode w ≠ .reset ∧ isSetpitch (decode w) = false) ∧
      countTicks [0x600000000#36, 0x200000003#36, 0x700000001#36, 0x600000000#36] = 2 := by
  refine ⟨fun w hw => ?_, by decide⟩
  simp only [List.mem_cons, List.not_mem_nil, or_false] at hw
  rcases hw with rfl | rfl | rfl | rfl <;> decide

/-- The words of a stream whose `SETDIV`s have the operand 0 or 1. -/
def dividerOneStream : List CommandWord := [0x600000000#36, 0x200000000#36, 0x100001800#36, 0x200000001#36, 0x600000000#36]

/-- DividerOneKeepsThePhasesEqual and MainSourceIgnoresTheDivider: a state and a stream of the kind they ask for. -/
theorem witness_divider_one :
    idleAtFullLevel.osc.divider = 1#16 ∧ idleAtFullLevel.osc.dividedPhase = idleAtFullLevel.osc.phase ∧
      dividerOneStream.map decode =
        [.tick, .setdiv 0#16, .setpitch 6144#16, .setdiv 1#16, .tick] ∧
      ∀ w ∈ dividerOneStream, ∀ imm : Word16, decode w = .setdiv imm → imm.toNat ≤ 1 := by
  refine ⟨rfl, rfl, by decide, ?_⟩
  intro w hw imm h
  have hd : decode w ∈ dividerOneStream.map decode := List.mem_map_of_mem hw
  rw [show dividerOneStream.map decode = [.tick, .setdiv 0#16, .setpitch 6144#16, .setdiv 1#16, .tick] by decide, h] at hd
  simp at hd
  rcases hd with rfl | rfl <;> decide

/-- DividedPhaseAdvancesOncePerWindow: a state at the start of a window and a stream that keeps the configuration. -/
theorem witness_divided_window :
    1 ≤ State.reset.osc.divider.toNat ∧ State.reset.osc.dividerCount.toNat = 0 ∧
      ∀ w ∈ ([0x600000000#36, 0x300008000#36, 0x700000003#36, 0x600000000#36] : List CommandWord),
        decode w ≠ .reset ∧ isSetpitch (decode w) = false ∧ isSetdiv (decode w) = false := by
  refine ⟨by decide, by decide, fun w hw => ?_⟩
  simp only [List.mem_cons, List.not_mem_nil, or_false] at hw
  rcases hw with rfl | rfl | rfl | rfl <;> decide

/-- The same with a `SETPITCH` in the stream, for the clauses that let it in. -/
theorem witness_divided_window_with_setpitch :
    ∀ w ∈ ([0x600000000#36, 0x100001800#36, 0x600000000#36] : List CommandWord),
      decode w ≠ .reset ∧ isSetdiv (decode w) = false := by
  intro w hw
  simp only [List.mem_cons, List.not_mem_nil, or_false] at hw
  rcases hw with rfl | rfl | rfl <;> decide

/-- IncrementInterpolatesItsTable: the clamped code and the two entries at both ends of the range and at -1. -/
theorem witness_pitch_entries :
    ([-32768, -16896, -1, 7679, 32767] : List Int).map (fun p =>
      let pc := max (-16896) (min 7679 p)
      (pc, (Config.pitchRom.entries.map BitVec.toNat).getD (pc % 1536 / 128).toNat 0,
        (Config.pitchRom.entries.map BitVec.toNat).getD ((pc % 1536 / 128).toNat + 1) 0)) =
      [(-16896, 687194767, 728057495), (-16896, 687194767, 728057495), (-1, 1297250977, 1374389534),
        (7679, 1297250977, 1374389534), (7679, 1297250977, 1374389534)] := by decide

/-- RenderAfterResetIsAtTheOffset and DefaultRomsGiveTheMachine: contents with one ROM of the default and one of another, and a
command of each kind. -/
theorem witness_roms :
    ({ flatRoms with sineRom := Config.sineRom } : Roms).sineRom = Config.sineRom ∧ shapeOf 0#3 = .sine ∧
      ({ flatRoms with sineRom := Config.sineRom } : Roms).pitchRom = flatRoms.pitchRom ∧
      isSetpitch (.setpitch 0#16) = true := ⟨rfl, rfl, rfl, rfl⟩

/-- EveryStreamRunsToItsEnd: a stream cut in two. -/
theorem witness_cut_stream :
    ([0x600000000#36, 0x700000001#36, 0x800000002#36] : List CommandWord) =
      [0x600000000#36, 0x700000001#36] ++ [0x800000002#36] := rfl

/-- SineInterpolatesItsTable: the two entries and the fraction at a phase inside a step. -/
theorem witness_sine_entries :
    Config.sineTable.getD ((0x12345678#32 : Word32).toNat / 2 ^ 24) 0 = 14010 ∧
      Config.sineTable.getD ((0x12345678#32 : Word32).toNat / 2 ^ 24 + 1) 0 = 14732 ∧
      (0x12345678#32 : Word32).toNat / 2 ^ 8 % 2 ^ 16 = 13398 ∧
      (0x123456FF#32 : Word32).toNat / 2 ^ 8 = (0x12345678#32 : Word32).toNat / 2 ^ 8 := by decide

/-- LevelScalesWithoutOffset: both ends of the waves and of the levels. -/
theorem witness_scale_ranges :
    (-32768 : Int) ≤ -32768 ∧ (-32768 : Int) ≤ 32767 ∧ (32767 : Int) ≤ 32767 ∧ (0 : Nat) ≤ 65535 ∧ (65535 : Nat) ≤ 65535 ∧
      scaleWave 32767 65535 ≠ 0 := by decide

/-- SamplesStayWithinTheirBounds: a build with the trapezoid's default, and a sample at each documented extreme at level 65535. -/
theorem witness_extremes :
    Config.defaultBuild.trapShift = 1 ∧
      [(Shape.sine, 0x40000000#32), (.sine, 0x400000FF#32), (.triangle, 0x3FFF8000#32), (.triangle, 0x40007FFF#32),
        (.trapezoid, 0x20000000#32), (.trapezoid, 0x5FFFFFFF#32), (.ramp, 0xFFFF0000#32), (.saw, 0x0000FFFF#32)].map
        (fun c => scaleWave (waveOf Config.sineRom Config.defaultBuild c.1 c.2) 65535) = List.replicate 8 32766 ∧
      [(Shape.triangle, 0xBFFF8000#32), (.triangle, 0xC0007FFF#32), (.trapezoid, 0x9FFF8000#32),
        (.trapezoid, 0xE0007FFF#32), (.ramp, 0x0000FFFF#32), (.saw, 0xFFFF0000#32)].map
        (fun c => scaleWave (waveOf Config.sineRom Config.defaultBuild c.1 c.2) 65535) = List.replicate 6 (-32767) ∧
      scaleWave (waveOf Config.sineRom Config.defaultBuild .sine 0xC0000000#32) 65535 = -32766 := by decide

/-- RenderDependsOnlyOnPhaseOffsetAndLevel: two states that differ elsewhere. -/
theorem witness_render_agree :
    midWindow.build = idleAtFullLevel.build ∧ midWindow.build.renderSrc = .divided ∧
      midWindow.osc.dividedPhase = idleAtFullLevel.osc.dividedPhase ∧
      midWindow.osc.initialPhase = idleAtFullLevel.osc.initialPhase ∧ midWindow.osc.level = idleAtFullLevel.osc.level ∧
      midWindow.osc ≠ idleAtFullLevel.osc := by
  refine ⟨rfl, ?_⟩
  decide

/-- The same with `RENDER_SRC = MAIN`, the main phases equal and the divided ones not. -/
theorem witness_render_agree_main :
    let s : State := { idleAtFullLevel with build := { Config.defaultBuild with renderSrc := .main } }
    let u : State := { s with osc := { s.osc with dividedPhase := 1#32 } }
    s.build = u.build ∧ s.build.renderSrc ≠ .divided ∧ s.osc.phase = u.osc.phase ∧
      s.osc.initialPhase = u.osc.initialPhase ∧ s.osc.level = u.osc.level ∧ s.osc ≠ u.osc := by
  refine ⟨rfl, ?_⟩
  decide

/-- RenderIsIdempotentUntilDisturbed: a stream of `SETPITCH`, `SETDIV`, `READ`, `NOP` and another `RENDER`. -/
theorem witness_undisturbed :
    ∀ w ∈ ([0x100007FFF#36, 0x200000004#36, 0x800000002#36, 0x000000000#36, 0x700000003#36] : List CommandWord),
      disturbsRender (decode w) = false := by
  intro w hw
  simp only [List.mem_cons, List.not_mem_nil, or_false] at hw
  rcases hw with rfl | rfl | rfl | rfl | rfl <;> decide

/-- RenderAfterResetIsAtTheOffset: no offset. -/
theorem witness_no_offset : midWindow.osc.initialPhase = 0#32 := by decide

/-- FirstStepsAfterResetRepeatTheIdleSample: the default source and one and two ticks of a window of three. -/
theorem witness_first_steps :
    midWindow.build.renderSrc = .divided ∧ 1 < midWindow.osc.divider.toNat ∧ 2 < midWindow.osc.divider.toNat := by decide

/-- PortsShowTheMostRecentResponses: a state whose ports agree and that steps. -/
theorem witness_ports_agree :
    midWindow.samplePort = (lastSample midWindow.responses).getD 0#16 ∧
      midWindow.rdataPort = (lastData midWindow.responses).getD 0#32 ∧ (after (step midWindow)).isSome = true := by decide

/-- NopsMayBeInsertedAnywhere: `NOP` and a reserved word. -/
theorem witness_no_operations :
    isNoOperation (decode 0x0DEADBEEF#36) = true ∧ isNoOperation (decode 0xF12345678#36) = true := by decide

/-- MainSourceIgnoresTheDivider: a state of the other source. -/
theorem witness_main_source : (State.powerOn Config.defaultRoms { Config.defaultBuild with renderSrc := .main }).build.renderSrc = .main := by decide

/-- ScheduledStreamsKeepOrderAndInvariants: a state that meets the invariants and a schedule that fits. -/
theorem witness_schedule :
    midWindow.InvOver Config.defaultRoms ∧ mergeStreams [.tick, .config, .tick] [0x600000000#36, 0x700000004#36] [0x30000FFFF#36] =
      some [0x600000000#36, 0x30000FFFF#36, 0x700000004#36] := ⟨midWindow_inv, by decide⟩

/-- InstancesAreIndependent: the second of two instances. -/
theorem witness_bank : ([State.reset, midWindow] : Bank)[1]? = some midWindow := rfl

end Sys2Proof.Tests
end

