-- ==== Sys2Proof/Proofs/Scope.lean ====
section
/-! PROOFS. The statements of 00_scope.md: the configured machine over the default ROM contents is the machine (R6, R51), which
commands read a ROM (R54), and what one step does with the next word (R5). -/

namespace Sys2Proof.Machine

/-! The machine over the contents of R52 and R53 is the machine of the fixed form. -/

theorem exec_eq_execWith_defaultRoms (i : Instr) (s : State) : exec i s = execWith Config.defaultRoms i s := by
  cases i with
  | setpitch imm => rw [exec_setpitch, execWith_setpitch]
  | render sel => rw [exec_render, execWith_render]
  | _ => rfl

theorem step_eq_stepWith_defaultRoms (s : State) : step s = stepWith Config.defaultRoms s := by
  cases hp : s.pending with
  | nil => rw [step_nil hp, stepWith_nil hp]
  | cons w rest => rw [step_cons hp, stepWith_cons hp, exec_eq_execWith_defaultRoms]

/-- The build a machine is made with is read by its power-on alone, so it does not matter to a run (log entry 6). -/
theorem run_coreWith_defaultRoms (b : Build) (k : Nat) (s : State) :
    Host.Core.run (coreWith Config.defaultRoms b) k s = Host.Core.run Sys2Proof.core k s := by
  induction k generalizing s with
  | zero => rfl
  | succ k ih =>
    have hstep : (coreWith Config.defaultRoms b).step s = Sys2Proof.core.step s := (step_eq_stepWith_defaultRoms s).symm
    simp only [Host.Core.run, hstep]
    cases Sys2Proof.core.step s with
    | next t => exact ih t
    | fault r => rfl
    | refused r => rfl

theorem runStream_defaultRoms (ws : List CommandWord) (s : State) :
    runStream Config.defaultRoms ws s = Host.Core.run Sys2Proof.core ws.length { s with pending := ws } :=
  run_coreWith_defaultRoms Config.defaultBuild ws.length { s with pending := ws }

/-- `SETPITCH` reads only the pitch ROM, `RENDER` only the sine ROM, and no other command reads either (R54). -/
theorem execWith_eq_of_read_roms_eq {roms others : Roms} {i : Instr} (s : State)
    (hpitch : isSetpitch i = true → roms.pitchRom = others.pitchRom)
    (hsine : (∃ sel : BitVec 3, i = .render sel) → roms.sineRom = others.sineRom) :
    execWith roms i s = execWith others i s := by
  cases i with
  | setpitch imm => rw [execWith_setpitch, execWith_setpitch, hpitch rfl]
  | render sel => rw [execWith_render, execWith_render, hsine ⟨sel, rfl⟩]
  | _ => rfl

end Sys2Proof.Machine

namespace Sys2Proof.Proofs

open Sys2Proof.Machine

/-- Settles O17, by the equations of a step with a word presented and with none; `s.accept rest` and `s.idle` are by
definition the states the statement writes out. -/
theorem stepRunsTheDecodedCommand : Obligations.StepRunsTheDecodedCommand := by
  intro s
  refine ⟨fun w rest hp _ => ?presented, fun hp => ?absent,
    fun roms => ⟨fun w rest hp _ => ?presentedWith, fun hp => ?absentWith⟩⟩
  case presented => exact step_cons hp
  case absent => exact step_nil hp
  case presentedWith => exact stepWith_cons hp
  case absentWith => exact stepWith_nil hp

/-- Settles O59, by the equality of the two step functions, an induction on the length of a run, and a case split on which ROM the
command reads. -/
theorem defaultRomsGiveTheMachine : Obligations.DefaultRomsGiveTheMachine :=
  ⟨exec_eq_execWith_defaultRoms, step_eq_stepWith_defaultRoms, runStream_defaultRoms, rfl,
    fun _ _ _ s hpitch hsine => execWith_eq_of_read_roms_eq s hpitch hsine⟩

end Sys2Proof.Proofs
end

section
/-! PROOFS. The statements of 10_state.md: power-on and `RESET` (R37), the invariants of R32 at power-on and through every step, the
count inside its window (I5), and the independence of the instances (R39). The facts about the functions of the model that they rest
on stand first, then what each register operation keeps, then the statements. -/

namespace Sys2Proof.Machine

/-! Linear interpolation between two table entries (R104, R166) stays between bounds of both entries. -/

theorem interpolate_range {a b lo hi : Int} {k f : Nat} (hf : f ≤ 2 ^ k)
    (ha : lo ≤ a ∧ a ≤ hi) (hb : lo ≤ b ∧ b ≤ hi) :
    lo ≤ a + shr ((b - a) * f) k ∧ a + shr ((b - a) * f) k ≤ hi := by
  have hpos : (0 : Int) < 2 ^ k := by positivity
  have hf' : (f : Int) ≤ 2 ^ k := by exact_mod_cast hf
  have hlo : (lo - a) * 2 ^ k ≤ (b - a) * f := by nlinarith
  have hhi : (b - a) * f ≤ (hi - a) * 2 ^ k := by nlinarith
  rw [shr_eq_ediv]
  have := (Int.le_ediv_iff_mul_le hpos).2 hlo
  have := Int.ediv_le_of_le_mul hpos hhi
  omega

/-! The increment fits its register over any pitch ROM, and lies in the range of I7 over the pitch ROM of R52. -/

theorem readPitchRom_range (rom : PitchRom) (i : Fin 13) : 0 ≤ readPitchRom rom i ∧ readPitchRom rom i ≤ 2 ^ 31 - 1 := by
  unfold readPitchRom
  omega

theorem subOf_le (pc : Int) : subOf pc ≤ 127 := by
  have := subOf_eq_emod pc
  omega

theorem interpolatePitch_range (rom : PitchRom) (pc : Int) :
    0 ≤ interpolatePitch rom pc ∧ interpolatePitch rom pc ≤ 2 ^ 31 - 1 :=
  interpolate_range ((subOf_le pc).trans (by decide)) (readPitchRom_range rom _) (readPitchRom_range rom _)

/-- The number of octave shifts of R105 for a saturated pitch. -/
theorem octaveShift_le (p : Int) : (4 - octaveOf (saturatePitch p)).toNat ≤ 15 := by
  have h := (clamp_range p Config.pitchMin Config.pitchMax (by decide)).1
  rw [octaveOf_eq_ediv]
  unfold saturatePitch
  unfold Config.pitchMin at *
  omega

/-- The octave shift lowers the interpolated value, by the factor 2^15 at most. -/
theorem computeIncrement_bounds (rom : PitchRom) (p : Int) :
    interpolatePitch rom (saturatePitch p) / 2 ^ 15 ≤ computeIncrement rom p ∧
      computeIncrement rom p ≤ interpolatePitch rom (saturatePitch p) := by
  have hv := (interpolatePitch_range rom (saturatePitch p)).1
  have hpow : (2 : Int) ^ (4 - octaveOf (saturatePitch p)).toNat ≤ 2 ^ 15 :=
    pow_le_pow_right₀ (by decide) (octaveShift_le p)
  simp only [computeIncrement, shr_eq_ediv]
  refine ⟨(Int.le_ediv_iff_mul_le (by positivity)).2 ?_, Int.ediv_le_self _ hv⟩
  have hquot : 0 ≤ interpolatePitch rom (saturatePitch p) / 2 ^ 15 := by positivity
  exact (Int.mul_le_mul_of_nonneg_left hpow hquot).trans (Int.ediv_mul_le _ (by decide))

theorem computeIncrement_range (rom : PitchRom) (p : Int) : 0 ≤ computeIncrement rom p ∧ computeIncrement rom p < 2 ^ 32 := by
  have hv := interpolatePitch_range rom (saturatePitch p)
  have hs := computeIncrement_bounds rom p
  omega

theorem increment_toNat (rom : PitchRom) (p : Int) :
    ((BitVec.ofInt 32 (computeIncrement rom p)).toNat : Int) = computeIncrement rom p := by
  have h := computeIncrement_range rom p
  rw [BitVec.toNat_ofInt]
  omega

/-- Neighbours in the table of R52 rise, from the first entry on, and the last of the 128 steps between any two ends at most at the
value that `INC_MAX` is. -/
theorem pitchRom_neighbours (i : Fin 12) :
    687194767 ≤ readPitchRom Config.pitchRom i.castSucc ∧
      readPitchRom Config.pitchRom i.castSucc ≤ readPitchRom Config.pitchRom i.succ ∧
      (readPitchRom Config.pitchRom i.succ - readPitchRom Config.pitchRom i.castSucc) * 127 <
        (1373786890 - readPitchRom Config.pitchRom i.castSucc) * 128 := by
  revert i
  decide

theorem interpolatePitch_pitchRom_range (pc : Int) :
    687194767 ≤ interpolatePitch Config.pitchRom pc ∧ interpolatePitch Config.pitchRom pc ≤ 1373786889 := by
  obtain ⟨hfirst, hrise, hlast⟩ := pitchRom_neighbours (semitoneOf pc)
  have hsub := subOf_le pc
  unfold interpolatePitch
  generalize readPitchRom Config.pitchRom (semitoneOf pc).castSucc = a at *
  generalize readPitchRom Config.pitchRom (semitoneOf pc).succ = b at *
  have hlo : 0 ≤ (b - a) * (subOf pc : Int) := by nlinarith
  have hhi : (b - a) * (subOf pc : Int) ≤ (b - a) * 127 := by nlinarith
  simp only [shr_eq_ediv]
  omega

theorem computeIncrement_pitchRom_range (p : Int) :
    Config.incMin ≤ computeIncrement Config.pitchRom p ∧ computeIncrement Config.pitchRom p ≤ Config.incMax := by
  have hv := interpolatePitch_pitchRom_range (saturatePitch p)
  have hs := computeIncrement_bounds Config.pitchRom p
  unfold Config.incMin Config.incMax
  omega

/-- I7 for a cached increment; its bounds belong to the contents of R52 (log entry 7). -/
theorem increment_toNat_range {rom : PitchRom} (p : Int) (hrom : rom = Config.pitchRom) :
    Config.incMin ≤ (BitVec.ofInt 32 (computeIncrement rom p)).toNat ∧
      ((BitVec.ofInt 32 (computeIncrement rom p)).toNat : Int) ≤ Config.incMax := by
  subst hrom
  rw [increment_toNat]
  exact computeIncrement_pitchRom_range p

/-! The divided pitch fits its register (R121). -/

theorem halvings_le (fuel v n : Nat) : halvings fuel v n ≤ n + fuel := by
  induction fuel generalizing v n with
  | zero => exact Nat.le_refl n
  | succ fuel ih =>
    have := ih (v / 2) (n + 1)
    unfold halvings
    split <;> omega

theorem ilog2_le (d : Nat) : ilog2 d ≤ 15 := (halvings_le 15 d 0).trans (by decide)

theorem dividedPitch_toInt (p : Word16) (d : Nat) :
    (BitVec.ofInt 17 (dividedPitchOf p.toInt d)).toInt = dividedPitchOf p.toInt d := by
  have hlog := ilog2_le d
  have hlo := p.le_toInt
  have hhi := p.toInt_lt
  have hrange : -2 ^ 16 ≤ dividedPitchOf p.toInt d ∧ dividedPitchOf p.toInt d < 2 ^ 16 := by
    unfold dividedPitchOf Config.octave
    omega
  exact BitVec.toInt_ofInt_eq_self (by decide) hrange.1 hrange.2

theorem dividerOf_pos (imm : Word16) : 1 ≤ (dividerOf imm).toNat := by
  unfold dividerOf
  split
  · decide
  · omega

/-! Every wave is a 16-bit value, over any sine ROM and for any shape, and its scaled sample keeps the range of I8. -/

theorem readSineRom_range (rom : SineRom) (i : Fin 257) : -32768 ≤ readSineRom rom i ∧ readSineRom rom i ≤ 32767 := by
  unfold readSineRom
  exact ⟨BitVec.le_toInt _, Int.le_of_lt_add_one BitVec.toInt_lt⟩

theorem sineWave_range (rom : SineRom) (p : Word32) : -32768 ≤ sineWave rom p ∧ sineWave rom p ≤ 32767 :=
  interpolate_range (p.extractLsb 23 8).isLt.le (readSineRom_range rom _) (readSineRom_range rom _)

theorem triangleWave_range (p : Word32) : -32768 ≤ triangleWave p ∧ triangleWave p ≤ 32767 := by
  have hh := ((p + 0x40000000#32).extractLsb 30 15).isLt
  simp only [triangleWave]
  split <;> omega

theorem trapezoidWave_range (k : Fin 16) (p : Word32) : -32768 ≤ trapezoidWave k p ∧ trapezoidWave k p ≤ 32767 :=
  clamp_range _ _ _ (by decide)

theorem rampWave_range (p : Word32) : -32768 ≤ rampWave p ∧ rampWave p ≤ 32767 := by
  have := (p.extractLsb 31 16).isLt
  unfold rampWave
  omega

theorem sawWave_range (p : Word32) : -32768 ≤ sawWave p ∧ sawWave p ≤ 32767 := by
  have := (p.extractLsb 31 16).isLt
  unfold sawWave
  omega

theorem waveOf_range (rom : SineRom) (b : Build) (shape : Shape) (p : Word32) :
    -32768 ≤ waveOf rom b shape p ∧ waveOf rom b shape p ≤ 32767 := by
  cases shape with
  | sine => exact sineWave_range rom p
  | triangle => exact triangleWave_range p
  | trapezoid => exact trapezoidWave_range b.trapShift p
  | ramp => exact rampWave_range p
  | saw => exact sawWave_range p

theorem scaleWave_range {wave : Int} {level : Nat} (hw : -32768 ≤ wave ∧ wave ≤ 32767) (hl : level ≤ 65535) :
    -32767 ≤ scaleWave wave level ∧ scaleWave wave level ≤ 32766 := by
  obtain ⟨hlo, hhi⟩ := hw
  have hlevel : (level : Int) ≤ 65535 := by exact_mod_cast hl
  have hprodLo : -32768 * 65535 ≤ wave * level := by nlinarith
  have hprodHi : wave * level ≤ 32767 * 65535 := by nlinarith
  have hsign : Int.sign 65536 = 1 := rfl
  rw [scaleWave, Int.tdiv_eq_ediv, hsign]
  split <;> omega

theorem renderSample_range (rom : SineRom) (b : Build) (shape : Shape) (o : Osc) :
    -32767 ≤ renderSample rom b shape o ∧ renderSample rom b shape o ≤ 32766 :=
  scaleWave_range (waveOf_range rom b shape _) (Nat.le_of_lt_succ o.level.isLt)

theorem sample_toInt_range (rom : SineRom) (b : Build) (shape : Shape) (o : Osc) :
    -32767 ≤ (BitVec.ofInt 16 (renderSample rom b shape o)).toInt ∧
      (BitVec.ofInt 16 (renderSample rom b shape o)).toInt ≤ 32766 := by
  have h := renderSample_range rom b shape o
  rwa [BitVec.toInt_ofInt_eq_self (by decide) (by omega) (by omega)]

/-! What one command writes in the registers, said once for every command and every ROM contents. -/

/-- The registers after a command, from the registers before it: the register operation of each command that has one. -/
inductive RegisterWrite (roms : Roms) (b : Build) (o : Osc) : Instr → Osc → Prop where
  | noOperation {i : Instr} (h : isNoOperation i = true) : RegisterWrite roms b o i o
  | setpitch (imm : Word16) : RegisterWrite roms b o (.setpitch imm) (o.setPitch roms.pitchRom imm)
  | setdiv (imm : Word16) : RegisterWrite roms b o (.setdiv imm) (o.setDivider (dividerOf imm))
  | setlevel (imm : Word16) : RegisterWrite roms b o (.setlevel imm) { o with level := imm }
  | setphase (imm : Word32) : RegisterWrite roms b o (.setphase imm) { o with initialPhase := imm }
  | reset : RegisterWrite roms b o .reset o.resetTiming
  | tick : RegisterWrite roms b o .tick o.tick
  | render (sel : BitVec 3) :
      RegisterWrite roms b o (.render sel)
        { o with sampleOut := BitVec.ofInt 16 (renderSample roms.sineRom b (shapeOf sel) o) }
  | read (rsel : BitVec 4) : RegisterWrite roms b o (.read rsel) o

theorem registerWrite_of_execWith {roms : Roms} {i : Instr} {s t : State} (h : execWith roms i s = .next t) :
    RegisterWrite roms s.build s.osc i t.osc := by
  cases i <;> cases h
  case setpitch imm => exact .setpitch imm
  case setdiv imm => exact .setdiv imm
  case setlevel imm => exact .setlevel imm
  case setphase imm => exact .setphase imm
  case reset => exact .reset
  case tick => exact .tick
  case render sel => exact .render sel
  case read rsel => exact .read rsel
  all_goals exact .noOperation rfl

/-! The count inside its window (I5). -/

theorem Osc.tick_countInWindow {o : Osc} (hd : 1 ≤ o.divider.toNat) : o.tick.countInWindow := by
  unfold Osc.countInWindow
  rw [Osc.tick_dividerCount, Osc.tick_divider]
  split
  next => exact hd
  next hb =>
    have hlt : o.dividerCount.toNat + 1 < o.divider.toNat := by simpa [Osc.atBoundary] using hb
    rw [BitVec.toNat_ofNat]
    omega

theorem Osc.resetTiming_countInWindow {o : Osc} (hd : 1 ≤ o.divider.toNat) : o.resetTiming.countInWindow := hd

theorem RegisterWrite.countInWindow_of_tick_or_reset {roms : Roms} {b : Build} {o o' : Osc} {i : Instr}
    (h : RegisterWrite roms b o i o') (hd : 1 ≤ o.divider.toNat) (hi : i = .tick ∨ i = .reset) : o'.countInWindow := by
  rcases hi with rfl | rfl
  · cases h with
    | noOperation h => cases h
    | tick => exact Osc.tick_countInWindow hd
  · cases h with
    | noOperation h => cases h
    | reset => exact Osc.resetTiming_countInWindow hd

/-- No command but `TICK` and `RESET` writes the count, and none but `SETDIV` the divider. -/
theorem RegisterWrite.keeps_countInWindow {roms : Roms} {b : Build} {o o' : Osc} {i : Instr}
    (h : RegisterWrite roms b o i o') (hd : 1 ≤ o.divider.toNat) (hi : isSetdiv i = false) (hc : o.countInWindow) :
    o'.countInWindow := by
  cases h with
  | setdiv imm => cases hi
  | tick => exact Osc.tick_countInWindow hd
  | reset => exact Osc.resetTiming_countInWindow hd
  | noOperation | setpitch | setlevel | setphase | render | read => exact hc

/-! What each register operation keeps of the invariants of R32. -/

namespace Osc.Inv

variable {o : Osc} {rom : PitchRom}

/-- I2, I3 and I7 for the new pitch; the other registers are as they were. -/
theorem setPitch (h : o.Inv rom) (imm : Word16) : (o.setPitch rom imm).Inv rom :=
  { h with
    increment_cached := increment_toNat rom imm.toInt
    dividedPitch_cached := dividedPitch_toInt imm o.divider.toNat
    increment_range := increment_toNat_range imm.toInt }

/-- I3 for the new divider, which is positive. -/
theorem setDivider (h : o.Inv rom) {d : Word16} (hd : 1 ≤ d.toNat) : (o.setDivider d).Inv rom :=
  { h with
    divider_pos := hd
    dividedPitch_cached := dividedPitch_toInt o.pitch d.toNat }

/-- The tick ends Running, with the count inside the window and so below the largest divider. -/
theorem tick (h : o.Inv rom) : o.tick.Inv rom where
  divider_pos := by simpa using h.divider_pos
  increment_cached := by simpa using h.increment_cached
  dividedPitch_cached := by simpa using h.dividedPitch_cached
  count_le := by
    have hcount : o.tick.dividerCount.toNat < o.tick.divider.toNat := Osc.tick_countInWindow h.divider_pos
    omega
  idle_zero := by simp
  increment_range := by simpa using h.increment_range
  sample_range := by simpa using h.sample_range

theorem resetTiming (h : o.Inv rom) : o.resetTiming.Inv rom :=
  { h with
    count_le := by simp
    idle_zero := fun _ => ⟨rfl, rfl, rfl⟩ }

/-- No invariant speaks of the level. -/
theorem withLevel (h : o.Inv rom) (v : Word16) : { o with level := v }.Inv rom := { h with }

/-- No invariant speaks of the phase offset. -/
theorem withInitialPhase (h : o.Inv rom) (v : Word32) : { o with initialPhase := v }.Inv rom := { h with }

theorem withSampleOut (h : o.Inv rom) {v : Word16} (hv : -32767 ≤ v.toInt ∧ v.toInt ≤ 32766) :
    { o with sampleOut := v }.Inv rom :=
  { h with sample_range := hv }

/-- The column "power-on value" of R37 meets the invariants over any pitch ROM (log entry 7). -/
theorem powerOn (rom : PitchRom) : (Osc.powerOn rom).Inv rom where
  divider_pos := Nat.le_refl 1
  increment_cached := increment_toNat rom 0
  dividedPitch_cached := rfl
  count_le := Nat.zero_le _
  idle_zero := fun _ => ⟨rfl, rfl, rfl⟩
  increment_range := increment_toNat_range 0
  sample_range := by simp

end Osc.Inv

/-- Every command keeps the invariants of R32. -/
theorem RegisterWrite.keeps_inv {roms : Roms} {b : Build} {o o' : Osc} {i : Instr}
    (h : RegisterWrite roms b o i o') (hinv : o.Inv roms.pitchRom) : o'.Inv roms.pitchRom := by
  cases h with
  | noOperation => exact hinv
  | setpitch imm => exact hinv.setPitch imm
  | setdiv imm => exact hinv.setDivider (dividerOf_pos imm)
  | setlevel imm => exact hinv.withLevel imm
  | setphase imm => exact hinv.withInitialPhase imm
  | reset => exact hinv.resetTiming
  | tick => exact hinv.tick
  | render sel => exact hinv.withSampleOut (sample_toInt_range roms.sineRom b (shapeOf sel) o)
  | read => exact hinv

theorem stepWith_completes (roms : Roms) (s : State) : ∃ t : State, stepWith roms s = .next t := by
  cases hp : s.pending with
  | nil => exact ⟨s.idle, stepWith_nil hp⟩
  | cons w rest =>
    obtain ⟨t, ht, -⟩ := execWith_completes roms (decode w) (s.accept rest)
    exact ⟨t, (stepWith_cons hp).trans ht⟩

theorem invOver_of_stepWith {roms : Roms} {s t : State} (h : stepWith roms s = .next t) (hinv : s.InvOver roms) :
    t.InvOver roms := by
  obtain ⟨-, rfl⟩ | ⟨w, rest, -, hexec⟩ := stepWith_cases h
  · exact hinv
  · exact (registerWrite_of_execWith hexec).keeps_inv hinv

theorem stepWith_keeps_invOver (roms : Roms) (s : State) (hinv : s.InvOver roms) :
    ∃ t : State, stepWith roms s = .next t ∧ t.InvOver roms := by
  obtain ⟨t, ht⟩ := stepWith_completes roms s
  exact ⟨t, ht, invOver_of_stepWith ht hinv⟩

theorem powerOn_invOver (roms : Roms) (b : Build) : (State.powerOn roms b).InvOver roms := Osc.Inv.powerOn roms.pitchRom

/-! A bank of instances (R212). -/

theorem Bank.stepAt_of_stepWith {roms : Roms} {bank : Bank} {k : Nat} {s t : State} (hk : bank[k]? = some s)
    (hstep : stepWith roms s = .next t) : Bank.stepAt roms bank k = .next (bank.set k t) := by
  simp [Bank.stepAt, hk, hstep]

end Sys2Proof.Machine

namespace Sys2Proof.Proofs

open Sys2Proof.Machine

/-- Settles O45: every command's register operation keeps the invariants over any ROM contents, and the machine of the fixed form
is the one over the contents of R52 and R53. -/
theorem stepKeepsTheInvariants : Obligations.StepKeepsTheInvariants := by
  refine ⟨fun s hinv => ?_, stepWith_keeps_invOver⟩
  rw [step_eq_stepWith_defaultRoms]
  exact stepWith_keeps_invOver Config.defaultRoms s hinv

/-- Settles O29, by the cases of what a command writes in the registers. -/
theorem countStaysInItsWindowUntilSetdiv : Obligations.CountStaysInItsWindowUntilSetdiv := by
  intro i s t hd hexec
  have hroms : ∃ roms : Roms, execWith roms i s = .next t := by
    obtain h | h := hexec
    · exact ⟨Config.defaultRoms, (exec_eq_execWith_defaultRoms i s).symm.trans h⟩
    · exact h
  obtain ⟨roms, h⟩ := hroms
  have hw := registerWrite_of_execWith h
  exact ⟨hw.countInWindow_of_tick_or_reset hd, hw.keeps_countInWindow hd⟩

/-- Settles O7: the power-on column by evaluation of `computeIncrement(0)`, the `RESET` column by the equation of `RESET`. -/
theorem powerOnAndResetColumns : Obligations.PowerOnAndResetColumns := by
  have hinc : computeIncrement Config.pitchRom 0 = 42949672 := by decide
  refine ⟨fun b => ⟨rfl, ?powerOn⟩, hinc, exec_reset⟩
  case powerOn =>
    show Osc.powerOn Config.pitchRom = _
    simp [Osc.powerOn, hinc]

/-- Settles O46: the power-on column meets the invariants, and its count 0 is below its divider 1. -/
theorem powerOnMeetsTheInvariants : Obligations.PowerOnMeetsTheInvariants :=
  ⟨powerOn_invOver Config.defaultRoms Config.defaultBuild,
    fun roms b => ⟨powerOn_invOver roms b, show 0 < 1 from Nat.zero_lt_one⟩⟩

/-- Settles O55: the bank after the step is the bank with the stepped state put at its position. -/
theorem instancesAreIndependent : Obligations.InstancesAreIndependent := by
  intro roms bank k s hk
  obtain ⟨t, ht⟩ := stepWith_completes roms s
  obtain ⟨hlt, -⟩ := List.getElem?_eq_some_iff.1 hk
  exact ⟨t, bank.set k t, ht, Bank.stepAt_of_stepWith hk ht, List.length_set,
    List.getElem?_set_self hlt, fun j hj => List.getElem?_set_ne hj.symm⟩

/-- Settles O58: the increment fits its register, and power-on reads the ROM for no other register. -/
theorem powerOnIncrementFollowsThePitchRom : Obligations.PowerOnIncrementFollowsThePitchRom :=
  fun roms _ => ⟨increment_toNat roms.pitchRom 0, rfl⟩

end Sys2Proof.Proofs
end

section
/-! PROOFS. The statement of 20_memory.md: the rounding law of the pitch ROM's contents (R52) and the symmetries of the sine ROM's
(R53). -/

namespace Sys2Proof.Machine

/-! Over the contents of R52 and R53 a read returns the value of the table, because each value fits its entry. -/

theorem pitchRom_entries_toNat : Config.pitchRom.entries.map BitVec.toNat = Config.pitchTable := rfl

theorem sineRom_entries_toInt : Config.sineRom.entries.map BitVec.toInt = Config.sineTable := by decide +kernel

theorem readPitchRom_pitchRom (i : Fin 13) :
    readPitchRom Config.pitchRom i = ((Config.pitchTable.getD i.val 0 : Nat) : Int) := by
  rw [readPitchRom_eq_getD, pitchRom_entries_toNat]

theorem readSineRom_sineRom (i : Fin 257) : readSineRom Config.sineRom i = Config.sineTable.getD i.val 0 := by
  rw [readSineRom_eq_getD, sineRom_entries_toInt]

/-! The pitch table (R52). -/

theorem pitchTable_strictly_increasing (i : Fin 12) :
    Config.pitchTable.getD i.val 0 < Config.pitchTable.getD (i.val + 1) 0 := by
  revert i
  decide

/-- Each of the first twelve entries is within one half of 2^32 * (160 / F_TICK_CAL) * 2^(i/12); both sides are doubled, freed of
the division and raised to the twelfth power. -/
theorem pitchTable_rounds (i : Fin 12) :
    ((2 * (Config.pitchTable.getD i.val 0 : Int) - 1) * Config.fTickCal) ^ 12 < (2 ^ 33 * 160) ^ 12 * 2 ^ i.val ∧
      (2 ^ 33 * 160) ^ 12 * 2 ^ i.val < ((2 * (Config.pitchTable.getD i.val 0 : Int) + 1) * Config.fTickCal) ^ 12 := by
  revert i
  decide

/-! The sine table (R53): its second half is its first half negated, and its first half reads the same backwards. -/

theorem sineTable_drop_half : Config.sineTable.drop 128 = (Config.sineTable.take 129).map (- ·) := by decide

theorem sineTable_half_reverse : (Config.sineTable.take 129).reverse = Config.sineTable.take 129 := by decide

theorem sineTable_getD_half_add {k : Nat} (hk : k ≤ 128) :
    Config.sineTable.getD (128 + k) 0 = -Config.sineTable.getD k 0 := by
  have h : (Config.sineTable.drop 128)[k]? = ((Config.sineTable.take 129).map (- ·))[k]? := by rw [sineTable_drop_half]
  rw [List.getElem?_drop, List.getElem?_map, List.getElem?_take_of_lt (by omega)] at h
  rw [List.getD_eq_getElem?_getD, List.getD_eq_getElem?_getD, h]
  cases Config.sineTable[k]? <;> simp

theorem sineTable_getD_half_sub {k : Nat} (hk : k ≤ 128) :
    Config.sineTable.getD (128 - k) 0 = Config.sineTable.getD k 0 := by
  have hlen : (Config.sineTable.take 129).length = 129 := rfl
  have h : (Config.sineTable.take 129).reverse[k]? = (Config.sineTable.take 129)[k]? := by rw [sineTable_half_reverse]
  rw [List.getElem?_reverse (by omega), hlen, List.getElem?_take_of_lt (by omega), List.getElem?_take_of_lt (by omega)] at h
  rw [List.getD_eq_getElem?_getD, List.getD_eq_getElem?_getD, h]

/-- The entry 256 - k is k' = 128 - k places into the second half, and k' mirrors to k in the first. -/
theorem sineTable_getD_end_sub {k : Nat} (hk : k ≤ 128) :
    Config.sineTable.getD (256 - k) 0 = -Config.sineTable.getD k 0 := by
  have hsplit : 256 - k = 128 + (128 - k) := by omega
  rw [hsplit, sineTable_getD_half_add (by omega), sineTable_getD_half_sub hk]

end Sys2Proof.Machine

namespace Sys2Proof.Proofs

open Sys2Proof.Machine

/-- Settles O24: the reads are entries of the two tables; the pitch table's law is checked entry by entry, and the sine table's three
symmetries come from the shape of its halves. -/
theorem romContentsKeepTheirShape : Obligations.RomContentsKeepTheirShape := by
  refine ⟨fun i => ?increasing, fun i => ?rounds, ?octaveEnd, fun k a b c d ha hb hc hd => ?symmetries⟩
  case increasing =>
    rw [readPitchRom_pitchRom, readPitchRom_pitchRom]
    exact_mod_cast pitchTable_strictly_increasing i
  case rounds =>
    rw [readPitchRom_pitchRom]
    exact pitchTable_rounds i
  case octaveEnd =>
    rw [readPitchRom_pitchRom, readPitchRom_pitchRom]
    rfl
  case symmetries =>
    have hk : k.val ≤ 128 := Nat.le_of_lt_succ k.isLt
    simp only [readSineRom_sineRom, ha, hb, hc, hd]
    exact ⟨sineTable_getD_end_sub hk, sineTable_getD_half_sub hk, sineTable_getD_half_add hk⟩

end Sys2Proof.Proofs
end

section
/-! PROOFS. The statements of 30_encoding.md: the decoder against the opcode table (R72, R79, R87) and the encoder (R84), what `READ`
returns (R82), the output ports and their pulses (R71), and the assembler's pseudo-instructions (R85). The fields of a command word
stand first, then which command each row of the table gives, then what one command does to the ports, then the statements. -/

namespace Sys2Proof

/-! A command word is its opcode and its operand (R70), as numbers and as bits. -/

theorem opcodeField_toNat (w : CommandWord) : (opcodeField w).toNat = w.toNat / 2 ^ 32 := by
  rw [opcodeField, BitVec.extractLsb_toNat, Nat.shiftRight_eq_div_pow]
  omega

theorem operandField_toNat (w : CommandWord) : (operandField w).toNat = w.toNat % 2 ^ 32 := by
  simp [operandField]

theorem assembleWord_toNat (opcode : BitVec 4) (operand : Word32) :
    (assembleWord opcode operand).toNat = opcode.toNat * 2 ^ 32 + operand.toNat := by
  unfold assembleWord
  rw [BitVec.toNat_append, ← Nat.shiftLeft_add_eq_or_of_lt operand.isLt, Nat.shiftLeft_eq]

@[simp] theorem opcodeField_assembleWord (opcode : BitVec 4) (operand : Word32) :
    opcodeField (assembleWord opcode operand) = opcode := by
  apply BitVec.eq_of_toNat_eq
  rw [opcodeField_toNat, assembleWord_toNat]
  omega

@[simp] theorem operandField_assembleWord (opcode : BitVec 4) (operand : Word32) :
    operandField (assembleWord opcode operand) = operand := by
  apply BitVec.eq_of_toNat_eq
  rw [operandField_toNat, assembleWord_toNat]
  omega

theorem assembleWord_fields (w : CommandWord) : assembleWord (opcodeField w) (operandField w) = w := by
  apply BitVec.eq_of_toNat_eq
  rw [assembleWord_toNat, opcodeField_toNat, operandField_toNat]
  omega

theorem opcodeField_eq_of_toNat {w : CommandWord} {k : Nat} (h : w.toNat / 2 ^ 32 = k) :
    opcodeField w = BitVec.ofNat 4 k := by
  rw [← h, ← opcodeField_toNat, BitVec.ofNat_toNat, BitVec.setWidth_eq]

theorem operandField_and (v w : CommandWord) : operandField (v &&& w) = operandField v &&& operandField w :=
  BitVec.extractLsb_and

/-! The operand fields (R74, R76, R77): each undoes the zero extension of the encoder, and ignores the bits above it. -/

theorem imm16Field_toNat (operand : Word32) : (imm16Field operand).toNat = operand.toNat % 2 ^ 16 := by
  simp [imm16Field]

theorem shapeField_toNat (operand : Word32) : (shapeField operand).toNat = operand.toNat % 2 ^ 3 := by
  simp [shapeField]

theorem rselField_toNat (operand : Word32) : (rselField operand).toNat = operand.toNat % 2 ^ 4 := by
  simp [rselField]

theorem imm16Field_zeroExtend (imm : Word16) : imm16Field (imm.zeroExtend 32) = imm := by
  apply BitVec.eq_of_toNat_eq
  rw [imm16Field_toNat, BitVec.zeroExtend, BitVec.toNat_setWidth_of_le (by decide)]
  omega

theorem shapeField_zeroExtend (sel : BitVec 3) : shapeField (sel.zeroExtend 32) = sel := by
  apply BitVec.eq_of_toNat_eq
  rw [shapeField_toNat, BitVec.zeroExtend, BitVec.toNat_setWidth_of_le (by decide)]
  omega

theorem rselField_zeroExtend (rsel : BitVec 4) : rselField (rsel.zeroExtend 32) = rsel := by
  apply BitVec.eq_of_toNat_eq
  rw [rselField_toNat, BitVec.zeroExtend, BitVec.toNat_setWidth_of_le (by decide)]
  omega

theorem imm16Field_and_mask (operand : Word32) : imm16Field (operand &&& 0xFFFF#32) = imm16Field operand :=
  BitVec.extractLsb_and.trans BitVec.and_allOnes

theorem shapeField_and_mask (operand : Word32) : shapeField (operand &&& 0x7#32) = shapeField operand :=
  BitVec.extractLsb_and.trans BitVec.and_allOnes

theorem rselField_and_mask (operand : Word32) : rselField (operand &&& 0xF#32) = rselField operand :=
  BitVec.extractLsb_and.trans BitVec.and_allOnes

theorem shapeField_operandField (w : CommandWord) : shapeField (operandField w) = BitVec.ofNat 3 w.toNat := by
  apply BitVec.eq_of_toNat_eq
  rw [shapeField_toNat, operandField_toNat, BitVec.toNat_ofNat]
  omega

theorem rselField_operandField (w : CommandWord) : rselField (operandField w) = BitVec.ofNat 4 w.toNat := by
  apply BitVec.eq_of_toNat_eq
  rw [rselField_toNat, operandField_toNat, BitVec.toNat_ofNat]
  omega

/-! The boundary of R81 and R87: selectors up to 4 pass, the others become `DEFAULT_SHAPE`. -/

theorem boundarySelector_of_le {sel : BitVec 3} (h : sel.toNat ≤ 4) : boundarySelector sel = sel := if_neg (by omega)

theorem boundarySelector_of_gt {sel : BitVec 3} (h : 4 < sel.toNat) : boundarySelector sel = 0#3 := if_pos h

theorem boundarySelector_le (sel : BitVec 3) : (boundarySelector sel).toNat ≤ 4 := by
  by_cases h : sel.toNat ≤ 4
  · rwa [boundarySelector_of_le h]
  · rw [boundarySelector_of_gt (by omega)]
    decide

/-! The rows of the opcode table (R72). -/

theorem opcodeTable_masks {r : OpcodeRow} (hr : r ∈ opcodeTable) :
    r.mask = 0xF00000000#36 ∧ r.used &&& r.mask = r.mask ∧ r.pattern = assembleWord (opcodeField r.pattern) 0#32 := by
  revert r
  decide

theorem opcodeTable_one_row_per_opcode (opcode : BitVec 4) :
    (opcodeTable.filter fun r => opcodeField r.pattern = opcode).length = 1 := by
  revert opcode
  decide

/-- A row looks at the opcode alone. -/
theorem OpcodeRow.accepts_iff {r : OpcodeRow} (hr : r ∈ opcodeTable) (w : CommandWord) :
    r.accepts w = true ↔ opcodeField r.pattern = opcodeField w := by
  obtain ⟨hmask, -, hpattern⟩ := opcodeTable_masks hr
  have hand : w &&& r.mask = assembleWord (opcodeField w) 0#32 := by
    rw [hmask, ← Laws.assembleWord_mask (opcodeField w) (operandField w), assembleWord_fields]
  rw [OpcodeRow.accepts, beq_iff_eq, hand]
  constructor
  · intro h
    rw [← h, opcodeField_assembleWord]
  · intro h
    rw [hpattern, h]

/-- A row reads the opcode, so a word that agrees with an accepted one on the bits the row reads is accepted. -/
theorem OpcodeRow.accepts_of_used_eq {r : OpcodeRow} (hr : r ∈ opcodeTable) {v w : CommandWord} (hv : r.accepts v = true)
    (h : v &&& r.used = w &&& r.used) : r.accepts w = true := by
  obtain ⟨-, hused, -⟩ := opcodeTable_masks hr
  have hmask : w &&& r.mask = v &&& r.mask := by
    rw [← hused, ← BitVec.and_assoc, ← BitVec.and_assoc, h]
  rwa [OpcodeRow.accepts, hmask]

/-- The command each row of the table gives for an operand, by the row's format (R73 to R77). -/
inductive OpcodeRow.Reads : OpcodeRow → Word32 → Instr → Prop where
  | nop (x : Word32) : Reads opcodeTable[0] x .nop
  | setpitch (x : Word32) : Reads opcodeTable[1] x (.setpitch (imm16Field x))
  | setdiv (x : Word32) : Reads opcodeTable[2] x (.setdiv (imm16Field x))
  | setlevel (x : Word32) : Reads opcodeTable[3] x (.setlevel (imm16Field x))
  | setphase (x : Word32) : Reads opcodeTable[4] x (.setphase x)
  | reset (x : Word32) : Reads opcodeTable[5] x .reset
  | tick (x : Word32) : Reads opcodeTable[6] x .tick
  | render (x : Word32) : Reads opcodeTable[7] x (.render (boundarySelector (shapeField x)))
  | read (x : Word32) : Reads opcodeTable[8] x (.read (rselField x))
  | reserved9 (x : Word32) : Reads opcodeTable[9] x .reserved9
  | reservedA (x : Word32) : Reads opcodeTable[10] x .reservedA
  | reservedB (x : Word32) : Reads opcodeTable[11] x .reservedB
  | reservedC (x : Word32) : Reads opcodeTable[12] x .reservedC
  | reservedD (x : Word32) : Reads opcodeTable[13] x .reservedD
  | reservedE (x : Word32) : Reads opcodeTable[14] x .reservedE
  | reservedF (x : Word32) : Reads opcodeTable[15] x .reservedF

/-- Every row gives a command for every operand: nothing is rejected (R80). -/
theorem OpcodeRow.exists_reads {r : OpcodeRow} (hr : r ∈ opcodeTable) (x : Word32) : ∃ i : Instr, r.Reads x i := by
  simp only [opcodeTable, List.mem_cons, List.not_mem_nil, or_false] at hr
  obtain rfl | rfl | rfl | rfl | rfl | rfl | rfl | rfl | rfl | rfl | rfl | rfl | rfl | rfl | rfl | rfl := hr
  · exact ⟨_, .nop x⟩
  · exact ⟨_, .setpitch x⟩
  · exact ⟨_, .setdiv x⟩
  · exact ⟨_, .setlevel x⟩
  · exact ⟨_, .setphase x⟩
  · exact ⟨_, .reset x⟩
  · exact ⟨_, .tick x⟩
  · exact ⟨_, .render x⟩
  · exact ⟨_, .read x⟩
  · exact ⟨_, .reserved9 x⟩
  · exact ⟨_, .reservedA x⟩
  · exact ⟨_, .reservedB x⟩
  · exact ⟨_, .reservedC x⟩
  · exact ⟨_, .reservedD x⟩
  · exact ⟨_, .reservedE x⟩
  · exact ⟨_, .reservedF x⟩

namespace OpcodeRow.Reads

variable {r : OpcodeRow} {x : Word32} {i : Instr}

/-- The decoder follows the table: the row with the word's opcode says which command it is (R87). -/
theorem decode_eq {w : CommandWord} (h : r.Reads (operandField w) i) (hop : opcodeField r.pattern = opcodeField w) :
    decode w = i := by
  unfold decode
  rw [← hop]
  generalize operandField w = x at h
  cases h <;> rfl

theorem decode_assembleWord (h : r.Reads x i) : decode (assembleWord (opcodeField r.pattern) x) = i :=
  decode_eq (by rwa [operandField_assembleWord]) (opcodeField_assembleWord _ _).symm

theorem mnemonic_eq (h : r.Reads x i) : r.mnemonic = i.mnemonic := by
  cases h <;> rfl

theorem wellFormed (h : r.Reads x i) : i.wellFormed = true := by
  cases h with
  | render x => exact decide_eq_true (boundarySelector_le (shapeField x))
  | _ => rfl

/-- Clearing the bits that the row's format ignores leaves the command (R79). -/
theorem and_used (h : r.Reads x i) : r.Reads (x &&& operandField r.used) i := by
  cases h with
  | setpitch x => exact imm16Field_and_mask x ▸ .setpitch (x &&& 0xFFFF#32)
  | setdiv x => exact imm16Field_and_mask x ▸ .setdiv (x &&& 0xFFFF#32)
  | setlevel x => exact imm16Field_and_mask x ▸ .setlevel (x &&& 0xFFFF#32)
  | setphase x => exact (BitVec.and_allOnes (x := x)).symm ▸ .setphase x
  | render x => exact shapeField_and_mask x ▸ .render (x &&& 0x7#32)
  | read x => exact rselField_and_mask x ▸ .read (x &&& 0xF#32)
  | nop => exact .nop _
  | reset => exact .reset _
  | tick => exact .tick _
  | reserved9 => exact .reserved9 _
  | reservedA => exact .reservedA _
  | reservedB => exact .reservedB _
  | reservedC => exact .reservedC _
  | reservedD => exact .reservedD _
  | reservedE => exact .reservedE _
  | reservedF => exact .reservedF _

end OpcodeRow.Reads

/-- The row that accepts a word gives the command the word decodes to. -/
theorem OpcodeRow.reads_decode {r : OpcodeRow} (hr : r ∈ opcodeTable) {w : CommandWord} (hw : r.accepts w = true) :
    r.Reads (operandField w) (decode w) := by
  obtain ⟨i, hi⟩ := OpcodeRow.exists_reads hr (operandField w)
  rwa [hi.decode_eq ((OpcodeRow.accepts_iff hr w).1 hw)]

/-- One row of the table accepts a word, and it gives the command the word decodes to. -/
theorem exists_row (w : CommandWord) :
    ∃ r : OpcodeRow, opcodeTable.filter (fun r => r.accepts w) = [r] ∧ r.Reads (operandField w) (decode w) := by
  have hfilter : opcodeTable.filter (fun r => r.accepts w) =
      opcodeTable.filter (fun r => opcodeField r.pattern = opcodeField w) :=
    List.filter_congr fun r hr => Bool.eq_iff_iff.2 ((OpcodeRow.accepts_iff hr w).trans decide_eq_true_iff.symm)
  obtain ⟨r, hr⟩ := List.length_eq_one_iff.1 (opcodeTable_one_row_per_opcode (opcodeField w))
  rw [← hfilter] at hr
  have hmem : r ∈ opcodeTable.filter fun r => r.accepts w := hr ▸ List.mem_singleton_self r
  obtain ⟨htable, haccepts⟩ := List.mem_filter.1 hmem
  exact ⟨r, hr, OpcodeRow.reads_decode htable haccepts⟩

theorem decode_and_used {r : OpcodeRow} (hr : r ∈ opcodeTable) {w : CommandWord} (hw : r.accepts w = true) :
    decode (w &&& r.used) = decode w := by
  have hread : r.Reads (operandField (w &&& r.used)) (decode w) := by
    rw [operandField_and]
    exact (OpcodeRow.reads_decode hr hw).and_used
  have hused : r.accepts (w &&& r.used) = true :=
    OpcodeRow.accepts_of_used_eq hr hw (by rw [BitVec.and_assoc, BitVec.and_self])
  exact hread.decode_eq ((OpcodeRow.accepts_iff hr _).1 hused)

theorem decode_of_opcode_seven {w : CommandWord} (h : w.toNat / 2 ^ 32 = 7) :
    decode w = .render (boundarySelector (BitVec.ofNat 3 w.toNat)) := by
  rw [← shapeField_operandField]
  exact (OpcodeRow.Reads.render (operandField w)).decode_eq (opcodeField_eq_of_toNat h).symm

theorem decode_of_opcode_eight {w : CommandWord} (h : w.toNat / 2 ^ 32 = 8) :
    decode w = .read (BitVec.ofNat 4 w.toNat) := by
  rw [← rselField_operandField]
  exact (OpcodeRow.Reads.read (operandField w)).decode_eq (opcodeField_eq_of_toNat h).symm

/-- The number of a canonical word whose operand is a zero-extended field (R84). -/
theorem assembleWord_zeroExtend_toNat (opcode : BitVec 4) {n : Nat} (field : BitVec n) (hn : n ≤ 32) :
    (assembleWord opcode (field.zeroExtend 32)).toNat = opcode.toNat * 2 ^ 32 + field.toNat := by
  rw [assembleWord_toNat, BitVec.zeroExtend, BitVec.toNat_setWidth_of_le hn]

end Sys2Proof

namespace Sys2Proof.Machine

/-! What one command does to the ports and the responses, said once for every command and every ROM contents (R71, R251). -/

/-- The ports and the responses after a command, from those before it: only a `RENDER` or a `READ` gives a response, and it shows
the response on its port. -/
inductive PortWrite (s t : State) : Instr → Prop where
  | silent {i : Instr} (hi : givesResponse i = false) (hsample : t.samplePort = s.samplePort) (hports : t.ports = s.ports)
      (hresponses : t.responses = s.responses) : PortWrite s t i
  | sample (sel : BitVec 3) (v : Word16) (hsample : t.samplePort = v) (hports : t.ports = { s.ports with sampleValid := true })
      (hresponses : t.responses = s.responses ++ [.sample v]) : PortWrite s t (.render sel)
  | data (rsel : BitVec 4) (v : Word32) (hsample : t.samplePort = s.samplePort)
      (hports : t.ports = { s.ports with rdata := v, rdataValid := true })
      (hresponses : t.responses = s.responses ++ [.data v]) : PortWrite s t (.read rsel)

theorem portWrite_of_execWith {roms : Roms} {i : Instr} {s t : State} (h : execWith roms i s = .next t) :
    PortWrite s t i := by
  cases i <;> cases h
  case render sel => exact .sample sel _ rfl rfl rfl
  case read rsel => exact .data rsel _ rfl rfl rfl
  case tick => exact .silent rfl (Osc.tick_sampleOut s.osc) rfl rfl
  all_goals exact .silent rfl rfl rfl rfl

/-! The most recent response of each kind, when more are given. -/

theorem lastSample_append (rs qs : List Response) : lastSample (rs ++ qs) = (lastSample qs).or (lastSample rs) := by
  induction rs with
  | nil => exact Option.or_none.symm
  | cons r rs ih =>
    cases r with
    | sample v => rw [List.cons_append, lastSample, lastSample, ih, Option.or_assoc]
    | data v => exact ih

theorem lastData_append (rs qs : List Response) : lastData (rs ++ qs) = (lastData qs).or (lastData rs) := by
  induction rs with
  | nil => exact Option.or_none.symm
  | cons r rs ih =>
    cases r with
    | sample v => exact ih
    | data v => rw [List.cons_append, lastData, lastData, ih, Option.or_assoc]

theorem PortWrite.keeps_portsAgree {s t : State} {i : Instr} (h : PortWrite s t i) (hs : s.portsAgree) : t.portsAgree := by
  obtain ⟨hsample, hdata⟩ := hs
  unfold State.rdataPort at hdata
  unfold State.portsAgree State.rdataPort
  cases h with
  | silent _ hsample' hports hresponses =>
    rw [hsample', hports, hresponses]
    exact ⟨hsample, hdata⟩
  | sample _ v hsample' hports hresponses =>
    rw [hsample', hports, hresponses, lastSample_append, lastData_append]
    exact ⟨rfl, hdata⟩
  | data _ v hsample' hports hresponses =>
    rw [hsample', hports, hresponses, lastSample_append, lastData_append]
    exact ⟨hsample, rfl⟩

theorem stepWith_keeps_portsAgree {roms : Roms} {s t : State} (hs : s.portsAgree) (h : stepWith roms s = .next t) :
    t.portsAgree := by
  obtain ⟨-, rfl⟩ | ⟨w, rest, -, hexec⟩ := stepWith_cases h
  · exact hs
  · exact (portWrite_of_execWith hexec).keeps_portsAgree hs

/-- The pulses of a command executed with both pulses low, as every accepted command is (log entry 2). -/
theorem PortWrite.pulses {s t : State} {i : Instr} (h : PortWrite s t i) (hsv : s.ports.sampleValid = false)
    (hrv : s.ports.rdataValid = false) :
    (t.ports.sampleValid = true ↔ ∃ sel : BitVec 3, i = .render sel) ∧
      (t.ports.rdataValid = true ↔ ∃ rsel : BitVec 4, i = .read rsel) := by
  cases h with
  | silent hi _ hports =>
    rw [hports, hsv, hrv]
    cases i with
    | render | read => cases hi
    | _ => simp
  | sample sel v _ hports => simp [hports, hrv]
  | data rsel v _ hports => simp [hports, hsv]

theorem stepWith_pulses {s : State} {w : CommandWord} {rest : List CommandWord} (hp : s.pending = w :: rest) (roms : Roms) :
    ∃ t : State, stepWith roms s = .next t ∧ t.pending = rest ∧ t.index = s.index + 1 ∧
      (t.ports.sampleValid = true ↔ ∃ sel : BitVec 3, decode w = .render sel) ∧
      (t.ports.rdataValid = true ↔ ∃ rsel : BitVec 4, decode w = .read rsel) := by
  obtain ⟨t, ht, -, hpending, hindex⟩ := execWith_completes roms (decode w) (s.accept rest)
  exact ⟨t, (stepWith_cons hp).trans ht, hpending, hindex, (portWrite_of_execWith ht).pulses rfl rfl⟩

/-! The numbers without a register read 0 (R82). -/

theorem readRegister_of_reserved (o : Osc) {rsel : BitVec 4} (h : 11 ≤ rsel.toNat) : readRegister o rsel = 0#32 := by
  unfold readRegister
  split
  case h_12 => rfl
  all_goals omega

/-! The words of the pseudo-instructions (R85). -/

theorem encode_tick : encode .tick = 0x600000000#36 := by decide

theorem encode_render (sel : BitVec 3) : encode (.render sel) = BitVec.ofNat 36 (0x700000000 + sel.toNat) := by
  apply BitVec.eq_of_toNat_eq
  have := sel.isLt
  rw [encode, assembleWord_zeroExtend_toNat _ _ (by decide), BitVec.toNat_ofNat, BitVec.toNat_ofNat]
  omega

theorem stepWords_eq (sel : BitVec 3) : stepWords sel = [0x600000000#36, BitVec.ofNat 36 (0x700000000 + sel.toNat)] := by
  rw [stepWords, encode_tick, encode_render]

theorem stepN_words_length (n : Nat) (sel : BitVec 3) : (AsmStatement.stepN n sel).words.length = 2 * n := by
  simp [AsmStatement.words, stepWords, Nat.mul_comm]

end Sys2Proof.Machine

namespace Sys2Proof.Proofs

open Sys2Proof.Machine

/-- Settles O1, by the commands: each is the one its row gives for the operand it is encoded with, `RENDER` because its selector
passes the boundary. -/
theorem decodeUndoesEncode : Obligations.DecodeUndoesEncode := by
  intro i hi
  cases i with
  | setpitch imm => exact (OpcodeRow.Reads.setpitch _).decode_assembleWord.trans (by rw [imm16Field_zeroExtend])
  | setdiv imm => exact (OpcodeRow.Reads.setdiv _).decode_assembleWord.trans (by rw [imm16Field_zeroExtend])
  | setlevel imm => exact (OpcodeRow.Reads.setlevel _).decode_assembleWord.trans (by rw [imm16Field_zeroExtend])
  | setphase imm => exact (OpcodeRow.Reads.setphase imm).decode_assembleWord
  | render sel =>
    have hsel : sel.toNat ≤ 4 := of_decide_eq_true hi
    exact (OpcodeRow.Reads.render _).decode_assembleWord.trans
      (by rw [shapeField_zeroExtend, boundarySelector_of_le hsel])
  | read rsel => exact (OpcodeRow.Reads.read _).decode_assembleWord.trans (by rw [rselField_zeroExtend])
  | nop => exact (OpcodeRow.Reads.nop _).decode_assembleWord
  | reset => exact (OpcodeRow.Reads.reset _).decode_assembleWord
  | tick => exact (OpcodeRow.Reads.tick _).decode_assembleWord
  | reserved9 => exact (OpcodeRow.Reads.reserved9 _).decode_assembleWord
  | reservedA => exact (OpcodeRow.Reads.reservedA _).decode_assembleWord
  | reservedB => exact (OpcodeRow.Reads.reservedB _).decode_assembleWord
  | reservedC => exact (OpcodeRow.Reads.reservedC _).decode_assembleWord
  | reservedD => exact (OpcodeRow.Reads.reservedD _).decode_assembleWord
  | reservedE => exact (OpcodeRow.Reads.reservedE _).decode_assembleWord
  | reservedF => exact (OpcodeRow.Reads.reservedF _).decode_assembleWord

/-- Settles O4: the row is the one with the word's opcode, and it gives the command the word decodes to. -/
theorem everyWordHasExactlyOneRow : Obligations.EveryWordHasExactlyOneRow := by
  intro w
  obtain ⟨r, hr, hread⟩ := exists_row w
  rw [hr, List.map_singleton, hread.mnemonic_eq]

/-- Settles O2: the command is one that a row gives, and the boundary replaces exactly the selectors above 4. -/
theorem decodedCommandsAreWellFormed : Obligations.DecodedCommandsAreWellFormed := by
  intro w
  have hsel : (BitVec.ofNat 3 w.toNat).toNat = w.toNat % 8 := BitVec.toNat_ofNat _ _
  refine ⟨?wellFormed, fun hop hle => ?passed, fun hop hgt => ?replaced⟩
  case wellFormed =>
    obtain ⟨r, -, hread⟩ := exists_row w
    exact hread.wellFormed
  case passed => rw [decode_of_opcode_seven hop, boundarySelector_of_le (hsel.trans_le hle)]
  case replaced => rw [decode_of_opcode_seven hop, boundarySelector_of_gt (hgt.trans_eq hsel.symm)]

/-- Settles O3: clearing the ignored bits of either word leaves its command, and then the words are equal; a step sees the word
through its command alone. -/
theorem ignoredBitsHaveNoEffect : Obligations.IgnoredBitsHaveNoEffect := by
  intro r hr v w hv h
  have hdecode : decode v = decode w := by
    rw [← decode_and_used hr hv, h, decode_and_used hr (OpcodeRow.accepts_of_used_eq hr hv h)]
  have hstep (roms : Roms) (s : State) (rest : List CommandWord) :
      stepWith roms { s with pending := v :: rest } = stepWith roms { s with pending := w :: rest } := by
    rw [stepWith_cons (w := v) rfl, stepWith_cons (w := w) rfl, hdecode]
    rfl
  refine ⟨hdecode, fun s rest => ⟨?_, fun roms => hstep roms s rest⟩⟩
  rw [step_eq_stepWith_defaultRoms, step_eq_stepWith_defaultRoms, hstep]

/-- Settles O6: each canonical word is assembled from the opcode and the zero-extended operand. -/
theorem canonicalWordsAreTheOpcodeAndTheOperand : Obligations.CanonicalWordsAreTheOpcodeAndTheOperand := by
  have hsetpitch (imm : Word16) : (encode (.setpitch imm)).toNat = 0x100000000 + imm.toNat :=
    assembleWord_zeroExtend_toNat 0x1#4 imm (by decide)
  have hsigned (imm : Word16) : imm.toInt % 65536 = imm.toNat := by
    rw [BitVec.toInt_eq_toNat_cond]
    split <;> omega
  refine ⟨by decide, by decide, by decide, fun imm => ⟨?setpitch, ?setdiv, ?setlevel⟩, fun imm => ?setphase,
    fun sel => ?render, fun rsel => ?read⟩
  case setpitch =>
    rw [hsetpitch, hsigned]
    rfl
  case setdiv => exact assembleWord_zeroExtend_toNat 0x2#4 imm (by decide)
  case setlevel => exact assembleWord_zeroExtend_toNat 0x3#4 imm (by decide)
  case setphase => exact assembleWord_toNat 0x4#4 imm
  case render => exact assembleWord_zeroExtend_toNat 0x7#4 sel (by decide)
  case read => exact assembleWord_zeroExtend_toNat 0x8#4 rsel (by decide)

/-- Settles O16: the value is the register's by the read-back map (R33), which extends it to 32 bits by its sign or by zeros. -/
theorem readReturnsTheSelectedRegister : Obligations.ReadReturnsTheSelectedRegister := by
  refine ⟨fun w h => decode_of_opcode_eight h, fun s rsel => ⟨_, readRegister s.osc rsel, exec_read rsel s, rfl, ?_⟩⟩
  refine ⟨?pitch, ?dividedPitch, ?phase, ?dividedPhase, ?divider, ?dividerCount, ?level, ?initialPhase, ?phaseIncrement,
    ?status, ?sampleOut, readRegister_of_reserved s.osc⟩
  all_goals rintro rfl
  case pitch => exact BitVec.toInt_signExtend_of_le (by decide)
  case dividedPitch => exact BitVec.toInt_signExtend_of_le (by decide)
  case sampleOut => exact BitVec.toInt_signExtend_of_le (by decide)
  case divider => exact BitVec.toNat_setWidth_of_le (by decide)
  case dividerCount => exact BitVec.toNat_setWidth_of_le (by decide)
  case level => exact BitVec.toNat_setWidth_of_le (by decide)
  case status =>
    show s.osc.statusWord.toNat = _
    unfold Osc.statusWord
    split <;> rfl
  case phase | dividedPhase | initialPhase | phaseIncrement => rfl

/-- Settles O48: an idle step touches neither the port values nor the responses, a command shows its response on the response's
own port. -/
theorem portsShowTheMostRecentResponses : Obligations.PortsShowTheMostRecentResponses := by
  refine ⟨fun s t hs h => ?_, fun _ _ _ => stepWith_keeps_portsAgree, fun _ _ => ⟨rfl, rfl⟩⟩
  rw [step_eq_stepWith_defaultRoms] at h
  exact stepWith_keeps_portsAgree hs h

/-- Settles O49: the pulses are low when a command is accepted, and the command raises its own. -/
theorem pulsesMarkRenderAndRead : Obligations.PulsesMarkRenderAndRead := by
  intro s w rest hp
  refine ⟨?_, stepWith_pulses hp⟩
  rw [step_eq_stepWith_defaultRoms]
  exact stepWith_pulses hp Config.defaultRoms

/-- Settles O5, by evaluation of the decoder on each word. -/
theorem sampleWordsDecodeAsWritten : Obligations.SampleWordsDecodeAsWritten := by
  unfold Obligations.SampleWordsDecodeAsWritten
  decide

/-- Settles O56: the lines by evaluation of the assembler, the expansions by their definitions and the canonical words of `TICK`
and `RENDER`. -/
theorem pseudoInstructionsExpandToCommands : Obligations.PseudoInstructionsExpandToCommands := by
  refine ⟨by decide, by decide, by decide, by decide, by decide, by decide, by decide, by decide, rfl, rfl, rfl,
    stepWords_eq, fun n => ⟨?tickN, fun sel => ⟨stepN_words_length n sel, rfl⟩⟩⟩
  case tickN => rw [AsmStatement.words, encode_tick]

end Sys2Proof.Proofs
end

section
/-! PROOFS. The statements of 40_mapper.md: the formula of R106 over any pitch ROM, its saturation, monotony, continuity and octave law
(R107), the anchors (R108), and the `SETPITCH` command (R109). The value on one chord of the table stands first, then the increment of
a code of the supported range and of the code after it, then what `SETPITCH` writes, then the statements. -/

namespace Sys2Proof.Machine

/-! The chord between two neighbours of the pitch ROM (R104), at any of its 129 points: the last one belongs to the next chord. -/

/-- The value on the chord above entry `i` at the point `f` of 128. -/
def pitchChord (rom : PitchRom) (i : Fin 12) (f : Int) : Int :=
  readPitchRom rom i.castSucc + (readPitchRom rom i.succ - readPitchRom rom i.castSucc) * f / 128

theorem interpolatePitch_eq_pitchChord (rom : PitchRom) (pc : Int) :
    interpolatePitch rom pc = pitchChord rom (semitoneOf pc) (pc % 128) := by
  simp only [interpolatePitch, pitchChord, shr_eq_ediv, subOf_eq_emod]
  rfl

@[simp] theorem pitchChord_start (rom : PitchRom) (i : Fin 12) : pitchChord rom i 0 = readPitchRom rom i.castSucc := by
  simp [pitchChord]

@[simp] theorem pitchChord_end (rom : PitchRom) (i : Fin 12) : pitchChord rom i 128 = readPitchRom rom i.succ := by
  simp [pitchChord]

/-- No two neighbours of the table of R52 are further apart than 128 steps of 602645. -/
theorem pitchRom_rise_le (i : Fin 12) :
    readPitchRom Config.pitchRom i.succ - readPitchRom Config.pitchRom i.castSucc ≤ 602645 * 128 := by
  revert i
  decide

theorem pitchChord_step (i : Fin 12) (f : Int) :
    pitchChord Config.pitchRom i f ≤ pitchChord Config.pitchRom i (f + 1) ∧
      pitchChord Config.pitchRom i (f + 1) ≤ pitchChord Config.pitchRom i f + 602645 := by
  obtain ⟨-, hrise, -⟩ := pitchRom_neighbours i
  have hle := pitchRom_rise_le i
  unfold pitchChord
  rw [Int.mul_add, Int.mul_one]
  omega

/-! The increment of a code of the supported range -16896..7679, to which the others are clamped (R101, R105). -/

theorem saturatePitch_eq (p : Int) : saturatePitch p = max (-16896) (min 7679 p) := clamp_eq_max_min p _ _ (by decide)

theorem saturatePitch_of_supported {p : Int} (hlo : -16896 ≤ p) (hhi : p ≤ 7679) : saturatePitch p = p := by
  rw [saturatePitch_eq]
  omega

theorem computeIncrement_congr (rom : PitchRom) {p q : Int} (h : saturatePitch p = saturatePitch q) :
    computeIncrement rom p = computeIncrement rom q := by
  unfold computeIncrement
  rw [h]

theorem computeIncrement_clamped (rom : PitchRom) (p : Int) :
    computeIncrement rom p = computeIncrement rom (max (-16896) (min 7679 p)) := by
  apply computeIncrement_congr
  rw [saturatePitch_eq, saturatePitch_eq]
  omega

theorem computeIncrement_of_supported (rom : PitchRom) {p : Int} (hlo : -16896 ≤ p) (hhi : p ≤ 7679) :
    computeIncrement rom p = pitchChord rom (semitoneOf p) (p % 128) / 2 ^ (4 - p / 1536).toNat := by
  simp only [computeIncrement, saturatePitch_of_supported hlo hhi, shr_eq_ediv, octaveOf_eq_ediv,
    interpolatePitch_eq_pitchChord]

/-- The exponent of the octave shift falls by one with each octave, down to the top octave's 0. -/
theorem octaveShift_succ {p : Int} (hp : p + 1536 ≤ 7679) :
    (4 - p / 1536).toNat = (4 - (p + 1536) / 1536).toNat + 1 := by
  omega

theorem semitoneOf_eq_iff (p q : Int) : semitoneOf p = semitoneOf q ↔ p % 1536 / 128 = q % 1536 / 128 := by
  rw [Fin.ext_iff, ← semitoneOf_eq_ediv, ← semitoneOf_eq_ediv]
  omega

/-- The code after `p` continues the chord of `p` by one point, over the border of a semitone because the chords share their ends, and
over the border of an octave when the last entry is twice the first (R107(c)). -/
theorem computeIncrement_succ {rom : PitchRom} (hdouble : readPitchRom rom 12 = 2 * readPitchRom rom 0) {p : Int}
    (hlo : -16896 ≤ p) (hhi : p < 7679) :
    computeIncrement rom (p + 1) = pitchChord rom (semitoneOf p) (p % 128 + 1) / 2 ^ (4 - p / 1536).toNat := by
  rw [computeIncrement_of_supported rom (by omega) (by omega)]
  have hp := semitoneOf_eq_ediv p
  have hq := semitoneOf_eq_ediv (p + 1)
  by_cases hsub : p % 128 = 127
  case neg =>
    have hsemitone : semitoneOf (p + 1) = semitoneOf p := (semitoneOf_eq_iff _ _).2 (by omega)
    have hpoint : (p + 1) % 128 = p % 128 + 1 := by omega
    have hoctave : (p + 1) / 1536 = p / 1536 := by omega
    rw [hsemitone, hpoint, hoctave]
  case pos =>
    have hpoint : (p + 1) % 128 = 0 := by omega
    rw [hpoint, hsub, pitchChord_start, show (127 + 1 : Int) = 128 from rfl, pitchChord_end]
    by_cases hborder : p % 1536 = 1535
    case neg =>
      have hentry : (semitoneOf (p + 1)).castSucc = (semitoneOf p).succ := by
        rw [Fin.ext_iff, Fin.val_castSucc, Fin.val_succ]
        omega
      have hoctave : (p + 1) / 1536 = p / 1536 := by omega
      rw [hentry, hoctave]
    case pos =>
      have hfirst : (semitoneOf (p + 1)).castSucc = 0 := by
        rw [Fin.ext_iff, Fin.val_castSucc, Fin.val_zero]
        omega
      have hlast : (semitoneOf p).succ = 12 := by
        rw [Fin.ext_iff, Fin.val_succ]
        show (semitoneOf p).val + 1 = 12
        omega
      have hshift : (4 - p / 1536).toNat = (4 - (p + 1) / 1536).toNat + 1 := by omega
      rw [hfirst, hlast, hdouble, hshift, pow_succ, Int.mul_comm 2, Int.mul_ediv_mul_of_pos_left _ _ (by decide)]

/-! Over the contents of R52 the increment rises from each code to the next, by one interpolation step at most (R107(b), (c)). -/

/-- Floor division does not widen a distance. -/
theorem ediv_two_pow_le_add {m n c : Int} {d : Nat} (hc : 0 ≤ c) (h : n ≤ m + c) : n / 2 ^ d ≤ m / 2 ^ d + c := by
  have hpos : (0 : Int) < 2 ^ d := by positivity
  rw [← Int.add_mul_ediv_right _ _ hpos.ne']
  apply Int.ediv_le_ediv hpos
  nlinarith

theorem computeIncrement_step (p : Int) :
    computeIncrement Config.pitchRom p ≤ computeIncrement Config.pitchRom (p + 1) ∧
      computeIncrement Config.pitchRom (p + 1) ≤ computeIncrement Config.pitchRom p + 602645 := by
  by_cases hin : -16896 ≤ p ∧ p < 7679
  case pos =>
    obtain ⟨hlo, hhi⟩ := hin
    obtain ⟨hrise, hjump⟩ := pitchChord_step (semitoneOf p) (p % 128)
    rw [computeIncrement_succ (by decide) hlo hhi, computeIncrement_of_supported _ hlo hhi.le]
    exact ⟨Int.ediv_le_ediv (by positivity) hrise, ediv_two_pow_le_add (by decide) hjump⟩
  case neg =>
    have hsame : computeIncrement Config.pitchRom (p + 1) = computeIncrement Config.pitchRom p := by
      apply computeIncrement_congr
      rw [saturatePitch_eq, saturatePitch_eq]
      omega
    omega

/-! An octave up shifts by one bit less, over any pitch ROM (R105). -/

/-- Dividing by half as much doubles the quotient and adds the bit that the larger divisor discards. -/
theorem ediv_sub_two_mul_ediv (m : Int) {n : Int} (hn : 0 ≤ n) :
    m / n - 2 * (m / (n * 2)) = 0 ∨ m / n - 2 * (m / (n * 2)) = 1 := by
  rw [← Int.ediv_ediv_of_nonneg hn]
  omega

theorem computeIncrement_octave_up (rom : PitchRom) {p : Int} (hlo : -16896 ≤ p) (hhi : p + 1536 ≤ 7679) :
    computeIncrement rom (p + 1536) - 2 * computeIncrement rom p = 0 ∨
      computeIncrement rom (p + 1536) - 2 * computeIncrement rom p = 1 := by
  have hsemitone : semitoneOf (p + 1536) = semitoneOf p := (semitoneOf_eq_iff _ _).2 (by omega)
  have hpoint : (p + 1536) % 128 = p % 128 := by omega
  rw [computeIncrement_of_supported rom (by omega) hhi, computeIncrement_of_supported rom hlo (by omega),
    hsemitone, hpoint, octaveShift_succ hhi, pow_succ]
  exact ediv_sub_two_mul_ediv _ (by positivity)

/-! `SETPITCH` (R109): its word, the logarithm in the divided pitch (R120), and its writes over any pitch ROM. -/

theorem decode_of_opcode_one {w : CommandWord} (h : w.toNat / 2 ^ 32 = 1) :
    decode w = .setpitch (BitVec.ofNat 16 w.toNat) := by
  have hfield : imm16Field (operandField w) = BitVec.ofNat 16 w.toNat := by
    apply BitVec.eq_of_toNat_eq
    rw [imm16Field_toNat, operandField_toNat, BitVec.toNat_ofNat]
    omega
  rw [← hfield]
  exact (OpcodeRow.Reads.setpitch (operandField w)).decode_eq (opcodeField_eq_of_toNat h).symm

/-- The loop of R120 adds the logarithm to its counter, when its fuel is enough for the value. -/
theorem halvings_eq_add_log2 {fuel v : Nat} (n : Nat) (h : v < 2 ^ (fuel + 1)) : halvings fuel v n = n + Nat.log2 v := by
  induction fuel generalizing v n with
  | zero =>
    have hv : ¬2 ≤ v := by omega
    rw [halvings, Nat.log2_def, if_neg hv, Nat.add_zero]
  | succ fuel ih =>
    rw [halvings, Nat.log2_def]
    by_cases hv : 2 ≤ v
    · rw [if_pos (c := v > 1) hv, if_pos hv, ih (n + 1) (by omega)]
      omega
    · rw [if_neg (c := v > 1) hv, if_neg hv, Nat.add_zero]

theorem ilog2_eq_log2 {d : Nat} (h : d < 2 ^ 16) : ilog2 d = Nat.log2 d :=
  (halvings_eq_add_log2 0 h).trans (Nat.zero_add _)

theorem Osc.setPitch_dividedPitch_toInt (o : Osc) (rom : PitchRom) (imm : Word16) :
    (o.setPitch rom imm).dividedPitch.toInt = imm.toInt - 1536 * (Nat.log2 o.divider.toNat : Int) := by
  rw [Osc.setPitch_dividedPitch, dividedPitch_toInt, ← ilog2_eq_log2 o.divider.isLt]
  rfl

theorem Osc.setPitch_phaseIncrement_toNat (o : Osc) (rom : PitchRom) (imm : Word16) :
    ((o.setPitch rom imm).phaseIncrement.toNat : Int) = computeIncrement rom imm.toInt :=
  increment_toNat rom imm.toInt

end Sys2Proof.Machine

namespace Sys2Proof.Proofs

open Sys2Proof.Machine

/-- Settles O9: the three values fit their registers over any pitch ROM, and the frame is the record update of `SETPITCH`. -/
theorem setpitchWritesPitchAndWhatDependsOnIt : Obligations.SetpitchWritesPitchAndWhatDependsOnIt := by
  refine ⟨fun w => decode_of_opcode_one, fun s imm => ⟨_, exec_setpitch imm s, rfl, ?_, ?_, rfl⟩,
    fun roms s imm => ⟨_, execWith_setpitch roms imm s, rfl, ?_, ?_, rfl⟩⟩
  · exact s.osc.setPitch_dividedPitch_toInt Config.pitchRom imm
  · exact s.osc.setPitch_phaseIncrement_toNat Config.pitchRom imm
  · exact s.osc.setPitch_dividedPitch_toInt roms.pitchRom imm
  · exact s.osc.setPitch_phaseIncrement_toNat roms.pitchRom imm

/-- Settles O19: the range is I7's, and a code beyond an end of the supported range has the value at that end. -/
theorem incrementSaturatesAndStaysInRange : Obligations.IncrementSaturatesAndStaysInRange := by
  intro p
  obtain ⟨hmin, hmax⟩ := computeIncrement_pitchRom_range p
  refine ⟨hmin, hmax, fun hlow => ?low, fun hhigh => ?high, computeIncrement_clamped Config.pitchRom p⟩
  case low =>
    have hclamp : max (-16896) (min 7679 p) = -16896 := by omega
    rw [computeIncrement_clamped, hclamp]
    decide
  case high =>
    have hclamp : max (-16896) (min 7679 p) = 7679 := by omega
    rw [computeIncrement_clamped, hclamp]
    decide

/-- Settles O20: the increment does not fall from any code to the next. -/
theorem incrementIsMonotone : Obligations.IncrementIsMonotone :=
  fun _ _ hpq => monotone_int_of_le_succ (fun p => (computeIncrement_step p).1) hpq

/-- Settles O21: a step is at most one point of the steepest chord, and the last step of the supported range is one. -/
theorem adjacentIncrementsDifferByAtMost602645 : Obligations.AdjacentIncrementsDifferByAtMost602645 := by
  refine ⟨fun p => ?bound, 7678, by decide, by decide, by decide⟩
  have hjump := (computeIncrement_step p).2
  omega

/-- Settles O22: both codes stand at the same point of the same chord, one octave shift apart. -/
theorem octaveUpDoublesTheIncrement : Obligations.OctaveUpDoublesTheIncrement :=
  fun _ hlo hhi => computeIncrement_octave_up Config.pitchRom hlo hhi

/-- Settles O57: the value on the chord of the clamped code, its two ends read as entries of the list; the examples by evaluation. -/
theorem incrementInterpolatesItsTable : Obligations.IncrementInterpolatesItsTable := by
  refine ⟨fun rom p pc a b hpc ha hb => ?formula, pitchRom_entries_toNat, by decide, by decide⟩
  have hsemitone : (pc % 1536 / 128).toNat = (semitoneOf pc).val := by
    rw [← semitoneOf_eq_ediv, Int.toNat_natCast]
  have hstart : a = readPitchRom rom (semitoneOf pc).castSucc := by
    rw [ha, hsemitone, readPitchRom_eq_getD, Fin.val_castSucc]
  have hend : b = readPitchRom rom (semitoneOf pc).succ := by
    rw [hb, hsemitone, readPitchRom_eq_getD, Fin.val_succ]
  rw [computeIncrement_clamped, ← hpc, computeIncrement_of_supported rom (by omega) (by omega), pitchChord,
    ← hstart, ← hend]

/-- Settles O23, by evaluation at the three anchors. -/
theorem anchorsHaveTheirIncrements : Obligations.AnchorsHaveTheirIncrements := by
  unfold Obligations.AnchorsHaveTheirIncrements
  decide

end Sys2Proof.Proofs
end

section
/-! PROOFS. The statements of 41_divider.md: the logarithm (R120) and the divided pitch (R121), the `SETDIV` command (R123, R124), and
that `dividedPitch`, `RUN` and `sampleOut` are bookkeeping, read by no phase and no sample (R122). The values and writes of `SETDIV`
stand first, then what the commands do to two states that differ in the bookkeeping registers alone, then the statements. -/

namespace Sys2Proof.Machine

/-! The logarithm of R120 and the divided pitch of R121. -/

theorem dividedPitchOf_eq_log2 (p : Int) {d : Nat} (h : d < 2 ^ 16) : dividedPitchOf p d = p - 1536 * (Nat.log2 d : Int) := by
  rw [dividedPitchOf, ilog2_eq_log2 h]
  rfl

/-- The ends are the pitch -32768 lowered by 15 octaves and the pitch 32767 lowered by none. -/
theorem dividedPitchOf_range (p : Word16) (d : Nat) :
    -55808 ≤ dividedPitchOf p.toInt d ∧ dividedPitchOf p.toInt d ≤ 32767 := by
  have hlog := ilog2_le d
  have hlo := p.le_toInt
  have hhi := p.toInt_lt
  unfold dividedPitchOf Config.octave
  omega

/-! `SETDIV` (R124): its word, the clamp of its operand (R123), and its writes. -/

theorem imm16Field_operandField (w : CommandWord) : imm16Field (operandField w) = BitVec.ofNat 16 w.toNat := by
  apply BitVec.eq_of_toNat_eq
  rw [imm16Field_toNat, operandField_toNat, BitVec.toNat_ofNat]
  omega

theorem decode_of_opcode_two {w : CommandWord} (h : w.toNat / 2 ^ 32 = 2) :
    decode w = .setdiv (BitVec.ofNat 16 w.toNat) := by
  rw [← imm16Field_operandField]
  exact (OpcodeRow.Reads.setdiv (operandField w)).decode_eq (opcodeField_eq_of_toNat h).symm

theorem dividerOf_toNat (imm : Word16) : (dividerOf imm).toNat = max imm.toNat 1 := by
  unfold dividerOf
  split
  next hzero =>
    rw [hzero]
    rfl
  next hpos => omega

theorem Osc.setDivider_dividedPitch_toInt (o : Osc) (d : Word16) :
    (o.setDivider d).dividedPitch.toInt = o.pitch.toInt - 1536 * (Nat.log2 d.toNat : Int) := by
  rw [Osc.setDivider_dividedPitch, dividedPitch_toInt, dividedPitchOf_eq_log2 _ d.isLt]

/-! One stream from two states: a relation that every command of the stream keeps holds between the two results. -/

theorem runStream_related {roms : Roms} {R : State → State → Prop} {ws : List CommandWord}
    (hpending : ∀ {s u : State} (rest : List CommandWord), R s u → R { s with pending := rest } { u with pending := rest })
    (haccept : ∀ {s u : State} (rest : List CommandWord), R s u → R (s.accept rest) (u.accept rest))
    (hexec : ∀ w ∈ ws, ∀ {s u : State}, R s u →
      ∃ t v : State, execWith roms (decode w) s = .next t ∧ execWith roms (decode w) u = .next v ∧ R t v)
    {s u : State} (h : R s u) :
    ∃ t v : State, runStream roms ws s = .next t ∧ runStream roms ws u = .next v ∧ R t v := by
  induction ws generalizing s u with
  | nil => exact ⟨_, _, runStream_nil roms s, runStream_nil roms u, hpending [] h⟩
  | cons w ws ih =>
    obtain ⟨t, v, ht, hv, htv⟩ := hexec w List.mem_cons_self (haccept ws h)
    rw [runStream_cons ht, runStream_cons hv]
    exact ih (fun w' hw' => hexec w' (List.mem_cons_of_mem w hw')) htv

/-! The bookkeeping registers `dividedPitch`, `RUN` and `sampleOut` (R122, R30, R31): with other values in them, every register
operation makes the same writes to the other registers. -/

/-- The registers with the three bookkeeping registers replaced. -/
def Osc.withBookkeeping (o : Osc) (dividedPitch : Word17) (run : Bool) (sampleOut : Word16) : Osc :=
  { o with dividedPitch := dividedPitch, run := run, sampleOut := sampleOut }

/-- The registers agree but for the bookkeeping registers. -/
def Osc.AgreesButBookkeeping (o o' : Osc) : Prop :=
  ∃ (x : Word17) (r : Bool) (y : Word16), o' = o.withBookkeeping x r y

namespace Osc.AgreesButBookkeeping

variable {o o' : Osc}

theorem eq_update (h : o.AgreesButBookkeeping o') :
    o' = { o with dividedPitch := o'.dividedPitch, run := o'.run, sampleOut := o'.sampleOut } := by
  obtain ⟨x, r, y, rfl⟩ := h
  rfl

/-- `SETPITCH` computes `dividedPitch` anew, from the operand and the divider. -/
theorem setPitch (h : o.AgreesButBookkeeping o') (rom : PitchRom) (imm : Word16) :
    (o.setPitch rom imm).AgreesButBookkeeping (o'.setPitch rom imm) := by
  obtain ⟨x, r, y, rfl⟩ := h
  exact ⟨(o.setPitch rom imm).dividedPitch, r, y, rfl⟩

/-- `SETDIV` computes `dividedPitch` anew, from the pitch and the operand. -/
theorem setDivider (h : o.AgreesButBookkeeping o') (d : Word16) :
    (o.setDivider d).AgreesButBookkeeping (o'.setDivider d) := by
  obtain ⟨x, r, y, rfl⟩ := h
  exact ⟨(o.setDivider d).dividedPitch, r, y, rfl⟩

theorem withLevel (h : o.AgreesButBookkeeping o') (v : Word16) :
    { o with level := v }.AgreesButBookkeeping { o' with level := v } := by
  obtain ⟨x, r, y, rfl⟩ := h
  exact ⟨x, r, y, rfl⟩

theorem withInitialPhase (h : o.AgreesButBookkeeping o') (v : Word32) :
    { o with initialPhase := v }.AgreesButBookkeeping { o' with initialPhase := v } := by
  obtain ⟨x, r, y, rfl⟩ := h
  exact ⟨x, r, y, rfl⟩

theorem withSampleOut (h : o.AgreesButBookkeeping o') (v : Word16) :
    { o with sampleOut := v }.AgreesButBookkeeping { o' with sampleOut := v } := by
  obtain ⟨x, r, y, rfl⟩ := h
  exact ⟨x, r, v, rfl⟩

theorem resetTiming (h : o.AgreesButBookkeeping o') : o.resetTiming.AgreesButBookkeeping o'.resetTiming := by
  obtain ⟨x, r, y, rfl⟩ := h
  exact ⟨x, false, y, rfl⟩

/-- Whether a tick is a boundary tick depends on the count and the divider alone (R137). -/
theorem tick (h : o.AgreesButBookkeeping o') : o.tick.AgreesButBookkeeping o'.tick := by
  obtain ⟨x, r, y, rfl⟩ := h
  have hboundary : (o.withBookkeeping x r y).advancePhase.atBoundary = o.advancePhase.atBoundary := rfl
  refine ⟨x, true, y, ?_⟩
  unfold Osc.tick Osc.advanceDivider
  rw [hboundary]
  split <;> rfl

/-- The sample is computed from a phase register, `initialPhase` and `level` (R155). -/
theorem renderSample_eq (h : o.AgreesButBookkeeping o') (rom : SineRom) (b : Build) (shape : Shape) :
    renderSample rom b shape o' = renderSample rom b shape o := by
  obtain ⟨x, r, y, rfl⟩ := h
  rfl

end Osc.AgreesButBookkeeping

theorem samplesOf_append_sample (rs : List Response) (v : Word16) : samplesOf (rs ++ [.sample v]) = samplesOf rs ++ [v] :=
  List.filterMap_append

theorem samplesOf_append_data (rs : List Response) (v : Word32) : samplesOf (rs ++ [.data v]) = samplesOf rs :=
  List.filterMap_append.trans (List.append_nil _)

/-- Two states of one build that agree but for the bookkeeping registers and have given the same samples. A `READ` of a bookkeeping
register sets their ports and data responses apart, so these are left out. -/
structure State.AgreesButBookkeeping (s u : State) : Prop where
  registers : s.osc.AgreesButBookkeeping u.osc
  build : u.build = s.build
  samples : samplesOf u.responses = samplesOf s.responses

namespace State.AgreesButBookkeeping

variable {s u : State}

/-- A command that writes registers alone. -/
theorem withOsc (h : s.AgreesButBookkeeping u) {o o' : Osc} (ho : o.AgreesButBookkeeping o') :
    (s.withOsc o).AgreesButBookkeeping (u.withOsc o') :=
  { h with registers := ho }

/-- A `READ` may return different data in the two states, but it writes no register and gives no sample. -/
theorem respondData (h : s.AgreesButBookkeeping u) (v v' : Word32) :
    (s.respondData v).AgreesButBookkeeping (u.respondData v') where
  registers := h.registers
  build := h.build
  samples := by
    rw [State.respondData_responses, State.respondData_responses, samplesOf_append_data, samplesOf_append_data, h.samples]

theorem showSample (h : s.AgreesButBookkeeping u) (v : Word16) : (s.showSample v).AgreesButBookkeeping (u.showSample v) where
  registers := h.registers.withSampleOut v
  build := h.build
  samples := by
    rw [State.showSample_responses, State.showSample_responses, samplesOf_append_sample, samplesOf_append_sample, h.samples]

theorem execWith (h : s.AgreesButBookkeeping u) (roms : Roms) (i : Instr) :
    ∃ t v : State, Machine.execWith roms i s = .next t ∧ Machine.execWith roms i u = .next v ∧ t.AgreesButBookkeeping v := by
  cases i with
  | setpitch imm => exact ⟨_, _, rfl, rfl, h.withOsc (h.registers.setPitch roms.pitchRom imm)⟩
  | setdiv imm => exact ⟨_, _, rfl, rfl, h.withOsc (h.registers.setDivider (dividerOf imm))⟩
  | setlevel imm => exact ⟨_, _, rfl, rfl, h.withOsc (h.registers.withLevel imm)⟩
  | setphase imm => exact ⟨_, _, rfl, rfl, h.withOsc (h.registers.withInitialPhase imm)⟩
  | reset => exact ⟨_, _, rfl, rfl, h.withOsc h.registers.resetTiming⟩
  | tick => exact ⟨_, _, rfl, rfl, h.withOsc h.registers.tick⟩
  | render sel =>
    refine ⟨_, _, execWith_render roms sel s, execWith_render roms sel u, ?_⟩
    rw [h.build, h.registers.renderSample_eq]
    exact h.showSample _
  | read rsel => exact ⟨_, _, rfl, rfl, h.respondData _ _⟩
  | nop | reserved9 | reservedA | reservedB | reservedC | reservedD | reservedE | reservedF => exact ⟨s, u, rfl, rfl, h⟩

theorem runStream (h : s.AgreesButBookkeeping u) (roms : Roms) (ws : List CommandWord) :
    ∃ t v : State, Machine.runStream roms ws s = .next t ∧ Machine.runStream roms ws u = .next v ∧
      t.AgreesButBookkeeping v :=
  runStream_related (fun _ h => { h with }) (fun _ h => { h with }) (fun w _ _ _ h => h.execWith roms (decode w)) h

end State.AgreesButBookkeeping

end Sys2Proof.Machine

namespace Sys2Proof.Proofs

open Sys2Proof.Machine

/-- Settles O51: the two launch states agree but for the bookkeeping registers, and every command keeps that and gives both the same
sample. -/
theorem bookkeepingInfluencesNoPhaseAndNoSample : Obligations.BookkeepingInfluencesNoPhaseAndNoSample := by
  intro roms s x r y ws
  have hlaunch : s.AgreesButBookkeeping { s with osc := { s.osc with dividedPitch := x, run := r, sampleOut := y } } :=
    { registers := ⟨x, r, y, rfl⟩, build := rfl, samples := rfl }
  obtain ⟨t, u, ht, hu, htu⟩ := hlaunch.runStream roms ws
  exact ⟨t, u, ht, hu, htu.registers.eq_update, htu.samples⟩

/-- Settles O10: the clamped operand is the new divider, and the frame is the record update of `SETDIV`. -/
theorem setdivWritesDividerAndDividedPitch : Obligations.SetdivWritesDividerAndDividedPitch := by
  refine ⟨fun w => decode_of_opcode_two, fun s imm => ⟨_, exec_setdiv imm s, dividerOf_toNat imm, ?_, rfl⟩⟩
  rw [← dividerOf_toNat]
  exact s.osc.setDivider_dividedPitch_toInt (dividerOf imm)

/-- Settles O25: within 16 bits the count of halvings is the library's logarithm, which has the two bounds and the recursion. -/
theorem halvingsCountTheHighestSetBit : Obligations.HalvingsCountTheHighestSetBit := by
  intro d hpos hmax
  have hlog : ilog2 d = Nat.log2 d := ilog2_eq_log2 (by omega)
  refine ⟨?lower, ?upper, ilog2_le d, ?halving⟩
  case lower =>
    rw [hlog]
    exact Nat.log2_self_le (by omega)
  case upper =>
    rw [hlog]
    exact Nat.lt_log2_self
  case halving =>
    by_cases hone : d = 1
    case pos =>
      rw [if_pos hone, hone]
      rfl
    case neg =>
      have htwo : 2 ≤ d := by omega
      rw [if_neg hone, hlog, ilog2_eq_log2 (by omega), Nat.log2_def, if_pos htwo]

/-- Settles O26: the count of halvings is the logarithm and at most 15, so the value lies within the 17 bits. -/
theorem dividedPitchFitsItsRegister : Obligations.DividedPitchFitsItsRegister := by
  intro p d _ hmax
  obtain ⟨hlo, hhi⟩ := dividedPitchOf_range p d
  exact ⟨dividedPitchOf_eq_log2 p.toInt (by omega), hlo, hhi, dividedPitch_toInt p d⟩

end Sys2Proof.Proofs
end

section
/-! PROOFS. The statements of 42_accumulator.md: the words and writes of `SETPHASE`, `RESET` and `TICK` (R136 to R140), the two phases
along a stream (R141 to R143), and the flag `RUN` (R145). What a tick writes and which registers a command leaves alone stand first,
then what a count of ticks says of a phase register, then the statements. -/

namespace Sys2Proof.Machine

/-! The command words: `SETPHASE` takes the whole operand (R75), `RESET` and `TICK` none (R73). -/

theorem operandField_eq_ofNat (w : CommandWord) : operandField w = BitVec.ofNat 32 w.toNat := by
  apply BitVec.eq_of_toNat_eq
  rw [operandField_toNat, BitVec.toNat_ofNat]

theorem decode_of_opcode_four {w : CommandWord} (h : w.toNat / 2 ^ 32 = 4) :
    decode w = .setphase (BitVec.ofNat 32 w.toNat) := by
  rw [← operandField_eq_ofNat]
  exact (OpcodeRow.Reads.setphase (operandField w)).decode_eq (opcodeField_eq_of_toNat h).symm

theorem decode_of_opcode_five {w : CommandWord} (h : w.toNat / 2 ^ 32 = 5) : decode w = .reset :=
  (OpcodeRow.Reads.reset (operandField w)).decode_eq (opcodeField_eq_of_toNat h).symm

theorem decode_of_opcode_six {w : CommandWord} (h : w.toNat / 2 ^ 32 = 6) : decode w = .tick :=
  (OpcodeRow.Reads.tick (operandField w)).decode_eq (opcodeField_eq_of_toNat h).symm

/-! What a tick writes (R136 to R138), as numbers. -/

theorem Osc.atBoundary_iff (o : Osc) : o.atBoundary = true ↔ o.dividerCount.toNat + 1 ≥ o.divider.toNat :=
  decide_eq_true_iff

/-- Away from the boundary the count is below a 16-bit divider, so counting up does not wrap. -/
theorem Osc.tick_dividerCount_toNat (o : Osc) :
    o.tick.dividerCount.toNat = if o.atBoundary then 0 else o.dividerCount.toNat + 1 := by
  rw [Osc.tick_dividerCount]
  split
  next => rfl
  next hb =>
    rw [Osc.atBoundary_iff] at hb
    rw [BitVec.toNat_ofNat]
    omega

/-- The frame of a tick: the timing registers and `RUN` alone are written. -/
theorem Osc.tick_eq_update (o : Osc) :
    o.tick = { o with
      phase := o.tick.phase, dividedPhase := o.tick.dividedPhase, dividerCount := o.tick.dividerCount, run := o.tick.run } := by
  unfold Osc.tick Osc.advanceDivider
  split <;> rfl

/-- I6: a `RESET` in Idle changes nothing (R140). -/
theorem Osc.Inv.resetTiming_eq_self {o : Osc} {rom : PitchRom} (h : o.Inv rom) (hrun : o.run = false) : o.resetTiming = o := by
  obtain ⟨hphase, hdivided, hcount⟩ := h.idle_zero hrun
  cases o
  subst hphase hdivided hcount hrun
  rfl

/-! Which registers a command leaves alone. -/

namespace RegisterWrite

variable {roms : Roms} {b : Build} {o o' : Osc} {i : Instr}

theorem eq_tick (h : RegisterWrite roms b o .tick o') : o' = o.tick := by
  cases h with
  | noOperation h => cases h
  | tick => rfl

theorem eq_resetTiming (h : RegisterWrite roms b o .reset o') : o' = o.resetTiming := by
  cases h with
  | noOperation h => cases h
  | reset => rfl

/-- `TICK` and `RESET` alone write the timing registers and `RUN`. -/
theorem keeps_timing (h : RegisterWrite roms b o i o') (htick : i ≠ .tick) (hreset : i ≠ .reset) :
    o'.phase = o.phase ∧ o'.dividedPhase = o.dividedPhase ∧ o'.dividerCount = o.dividerCount ∧ o'.run = o.run := by
  cases h with
  | tick => exact absurd rfl htick
  | reset => exact absurd rfl hreset
  | noOperation | setpitch | setdiv | setlevel | setphase | render | read => exact ⟨rfl, rfl, rfl, rfl⟩

/-- `SETPITCH` alone writes the increment. -/
theorem keeps_phaseIncrement (h : RegisterWrite roms b o i o') (hi : isSetpitch i = false) :
    o'.phaseIncrement = o.phaseIncrement := by
  cases h with
  | setpitch => cases hi
  | tick => exact o.tick_phaseIncrement
  | noOperation | setdiv | setlevel | setphase | reset | render | read => rfl

/-- `SETDIV` alone writes the divider. -/
theorem keeps_divider (h : RegisterWrite roms b o i o') (hi : isSetdiv i = false) : o'.divider = o.divider := by
  cases h with
  | setdiv => cases hi
  | tick => exact o.tick_divider
  | noOperation | setpitch | setlevel | setphase | reset | render | read => rfl

/-- The two states of R145 and the moves between them. -/
theorem runState_eq (h : RegisterWrite roms b o i o') :
    o'.runState = if i = .tick then .running else if i = .reset then .idle else o.runState := by
  unfold Osc.runState
  by_cases htick : i = .tick
  · subst htick
    rw [h.eq_tick, Osc.tick_run]
    rfl
  by_cases hreset : i = .reset
  · subst hreset
    rw [h.eq_resetTiming, Osc.resetTiming_run]
    rfl
  obtain ⟨-, -, -, hrun⟩ := h.keeps_timing htick hreset
  rw [if_neg htick, if_neg hreset, hrun]

end RegisterWrite

theorem execWith_runState (roms : Roms) (i : Instr) (s : State) :
    ∃ t : State, execWith roms i s = .next t ∧
      t.osc.runState = if i = .tick then .running else if i = .reset then .idle else s.osc.runState := by
  obtain ⟨t, ht, -⟩ := execWith_completes roms i s
  exact ⟨t, ht, (registerWrite_of_execWith ht).runState_eq⟩

/-- Running over the default contents, one increment before the main phase returns to 0. -/
def stateBeforeWrap : State :=
  { State.reset with osc := { State.reset.osc with phase := -State.reset.osc.phaseIncrement, run := true } }

theorem stateBeforeWrap_inv : stateBeforeWrap.Inv :=
  { Osc.Inv.powerOn Config.pitchRom with idle_zero := nofun }

theorem stateBeforeWrap_tick_phase : stateBeforeWrap.osc.tick.phase = 0#32 := by
  rw [Osc.tick_phase]
  exact BitVec.add_left_neg _

/-! Counting the ticks of a stream. -/

theorem countTicks_cons_of_tick {w : CommandWord} (ws : List CommandWord) (h : decode w = .tick) :
    countTicks (w :: ws) = countTicks ws + 1 :=
  List.countP_cons_of_pos (beq_iff_eq.2 h)

theorem countTicks_cons_of_ne_tick {w : CommandWord} (ws : List CommandWord) (h : decode w ≠ .tick) :
    countTicks (w :: ws) = countTicks ws :=
  List.countP_cons_of_neg (mt beq_iff_eq.1 h)

/-- A property of the registers and of the number of ticks so far, along a stream: it is enough that a tick carries it from one
number to the next and that the other commands of the stream keep it. -/
theorem runStream_counts_ticks {roms : Roms} {P : Nat → Osc → Prop} {ws : List CommandWord}
    (htick : ∀ {n : Nat} {o : Osc}, P n o → P (n + 1) o.tick)
    (hother : ∀ w ∈ ws, decode w ≠ .tick → ∀ {n : Nat} {b : Build} {o o' : Osc},
      RegisterWrite roms b o (decode w) o' → P n o → P n o')
    {n : Nat} {s : State} (h : P n s.osc) :
    ∃ t : State, runStream roms ws s = .next t ∧ P (n + countTicks ws) t.osc := by
  induction ws generalizing n s with
  | nil => exact ⟨_, runStream_nil roms s, h⟩
  | cons w ws ih =>
    obtain ⟨t, ht, -⟩ := execWith_completes roms (decode w) (State.accept { s with pending := w :: ws } ws)
    have hwrite := registerWrite_of_execWith ht
    have hrest := @ih fun w' hw' => hother w' (List.mem_cons_of_mem w hw')
    rw [runStream_cons ht]
    by_cases hw : decode w = .tick
    · rw [hw] at hwrite
      rw [countTicks_cons_of_tick ws hw, Nat.add_comm (countTicks ws), ← Nat.add_assoc]
      exact hrest (hwrite.eq_tick ▸ htick h)
    · rw [countTicks_cons_of_ne_tick ws hw]
      exact hrest (hother w List.mem_cons_self hw hwrite h)

/-- A 32-bit accumulator that stands at `k` increments stands at `k + 1` of them when one is added. -/
theorem accumulator_add_toNat {p start inc : Word32} {k : Nat}
    (h : p.toNat = (start.toNat + k * inc.toNat) % 2 ^ 32) :
    (p + inc).toNat = (start.toNat + (k + 1) * inc.toNat) % 2 ^ 32 := by
  rw [BitVec.toNat_add, h, Nat.mod_add_mod, Nat.add_mul, Nat.one_mul, Nat.add_assoc]

/-! The main phase (R141). -/

/-- The increment is the launch state's and the main phase has advanced by it `n` times. -/
structure Osc.MainPhaseAfter (start : Osc) (n : Nat) (o : Osc) : Prop where
  increment : o.phaseIncrement = start.phaseIncrement
  phase : o.phase.toNat = (start.phase.toNat + n * start.phaseIncrement.toNat) % 2 ^ 32

namespace Osc.MainPhaseAfter

variable {start o o' : Osc} {n : Nat}

theorem launch (o : Osc) : o.MainPhaseAfter 0 o where
  increment := rfl
  phase := by
    rw [Nat.zero_mul, Nat.add_zero, Nat.mod_eq_of_lt o.phase.isLt]

theorem tick (h : start.MainPhaseAfter n o) : start.MainPhaseAfter (n + 1) o.tick where
  increment := o.tick_phaseIncrement.trans h.increment
  phase := by
    rw [Osc.tick_phase, h.increment]
    exact accumulator_add_toNat h.phase

theorem keeps {roms : Roms} {b : Build} {i : Instr} (h : start.MainPhaseAfter n o) (hw : RegisterWrite roms b o i o')
    (htick : i ≠ .tick) (hreset : i ≠ .reset) (hpitch : isSetpitch i = false) : start.MainPhaseAfter n o' where
  increment := (hw.keeps_phaseIncrement hpitch).trans h.increment
  phase := by
    obtain ⟨hphase, -⟩ := hw.keeps_timing htick hreset
    rw [hphase]
    exact h.phase

end Osc.MainPhaseAfter

/-! The two phases under the divider 1 (R142). -/

/-- A `SETDIV` of 0 or 1 stores 1 (R123). -/
theorem dividerOf_eq_one {imm : Word16} (h : imm.toNat ≤ 1) : dividerOf imm = 1#16 := by
  apply BitVec.eq_of_toNat_eq
  rw [dividerOf_toNat]
  exact Nat.max_eq_right h

/-- Every tick is a boundary tick and the two phases are equal. -/
structure Osc.PhasesEqual (o : Osc) : Prop where
  divider : o.divider = 1#16
  phases : o.dividedPhase = o.phase

namespace Osc.PhasesEqual

variable {o o' : Osc}

theorem tick (h : o.PhasesEqual) : o.tick.PhasesEqual where
  divider := o.tick_divider.trans h.divider
  phases := by
    have hboundary : o.atBoundary = true := by
      rw [Osc.atBoundary_iff, h.divider]
      exact Nat.le_add_left 1 _
    rw [Osc.tick_dividedPhase, Osc.tick_phase, if_pos hboundary, h.phases]

theorem resetTiming (h : o.PhasesEqual) : o.resetTiming.PhasesEqual where
  divider := h.divider
  phases := rfl

theorem keeps {roms : Roms} {b : Build} {i : Instr} (h : o.PhasesEqual) (hw : RegisterWrite roms b o i o')
    (hdiv : ∀ imm : Word16, i = .setdiv imm → imm.toNat ≤ 1) : o'.PhasesEqual := by
  cases hw with
  | setdiv imm => exact { divider := dividerOf_eq_one (hdiv imm rfl), phases := h.phases }
  | tick => exact h.tick
  | reset => exact h.resetTiming
  | noOperation | setpitch | setlevel | setphase | render | read => exact { h with }

end Osc.PhasesEqual

/-! The divided phase under a constant divider (R143): the count is the number of ticks modulo the divider, so the window closes
whenever the number of ticks is a multiple of it. -/

/-- The divider is the launch state's and `n` ticks have passed since the start of a window. -/
structure Osc.WindowAfter (start : Osc) (n : Nat) (o : Osc) : Prop where
  divider : o.divider = start.divider
  count : o.dividerCount.toNat = n % start.divider.toNat

namespace Osc.WindowAfter

variable {start o o' : Osc} {n : Nat}

theorem launch (h : o.dividerCount.toNat = 0) : o.WindowAfter 0 o where
  divider := rfl
  count := by rw [h, Nat.zero_mod]

theorem atBoundary_iff (h : start.WindowAfter n o) (hd : 1 ≤ start.divider.toNat) :
    o.atBoundary = true ↔ (n + 1) % start.divider.toNat = 0 := by
  have hlt := Nat.mod_lt n hd
  rw [Osc.atBoundary_iff, h.count, h.divider, ← Nat.mod_add_mod]
  constructor
  · intro hge
    have hlast : n % start.divider.toNat + 1 = start.divider.toNat := by omega
    rw [hlast, Nat.mod_self]
  · intro hzero
    by_contra hbelow
    rw [Nat.mod_eq_of_lt (by omega)] at hzero
    omega

theorem tick (h : start.WindowAfter n o) (hd : 1 ≤ start.divider.toNat) : start.WindowAfter (n + 1) o.tick where
  divider := o.tick_divider.trans h.divider
  count := by
    rw [Osc.tick_dividerCount_toNat]
    split
    next hb => exact ((h.atBoundary_iff hd).1 hb).symm
    next hb =>
      rw [Osc.atBoundary_iff, h.count, h.divider] at hb
      have hlt : n % start.divider.toNat + 1 < start.divider.toNat := by omega
      rw [h.count, ← Nat.mod_add_mod, Nat.mod_eq_of_lt hlt]

theorem keeps {roms : Roms} {b : Build} {i : Instr} (h : start.WindowAfter n o) (hw : RegisterWrite roms b o i o')
    (htick : i ≠ .tick) (hreset : i ≠ .reset) (hdiv : isSetdiv i = false) : start.WindowAfter n o' where
  divider := (hw.keeps_divider hdiv).trans h.divider
  count := by
    obtain ⟨-, -, hcount, -⟩ := hw.keeps_timing htick hreset
    rw [hcount]
    exact h.count

end Osc.WindowAfter

/-- Moreover the increment is the launch state's, and the divided phase has advanced by it once per window. -/
structure Osc.DividedPhaseAfter (start : Osc) (n : Nat) (o : Osc) : Prop extends start.WindowAfter n o where
  increment : o.phaseIncrement = start.phaseIncrement
  dividedPhase : o.dividedPhase.toNat =
    (start.dividedPhase.toNat + n / start.divider.toNat * start.phaseIncrement.toNat) % 2 ^ 32

namespace Osc.DividedPhaseAfter

variable {start o o' : Osc} {n : Nat}

theorem launch (h : o.dividerCount.toNat = 0) : o.DividedPhaseAfter 0 o where
  toWindowAfter := .launch h
  increment := rfl
  dividedPhase := by
    rw [Nat.zero_div, Nat.zero_mul, Nat.add_zero, Nat.mod_eq_of_lt o.dividedPhase.isLt]

/-- The quotient of the number of ticks by the divider goes up exactly on the boundary ticks. -/
theorem tick (h : start.DividedPhaseAfter n o) (hd : 1 ≤ start.divider.toNat) :
    start.DividedPhaseAfter (n + 1) o.tick where
  toWindowAfter := h.toWindowAfter.tick hd
  increment := o.tick_phaseIncrement.trans h.increment
  dividedPhase := by
    have hboundary := (h.atBoundary_iff hd).trans Nat.dvd_iff_mod_eq_zero.symm
    rw [Osc.tick_dividedPhase]
    split
    next hb =>
      rw [Nat.succ_div_of_dvd (hboundary.1 hb), h.increment]
      exact accumulator_add_toNat h.dividedPhase
    next hb =>
      rw [Nat.succ_div_of_not_dvd (mt hboundary.2 hb)]
      exact h.dividedPhase

theorem keeps {roms : Roms} {b : Build} {i : Instr} (h : start.DividedPhaseAfter n o) (hw : RegisterWrite roms b o i o')
    (htick : i ≠ .tick) (hreset : i ≠ .reset) (hdiv : isSetdiv i = false) (hpitch : isSetpitch i = false) :
    start.DividedPhaseAfter n o' where
  toWindowAfter := h.toWindowAfter.keeps hw htick hreset hdiv
  increment := (hw.keeps_phaseIncrement hpitch).trans h.increment
  dividedPhase := by
    obtain ⟨-, hdivided, -⟩ := hw.keeps_timing htick hreset
    rw [hdivided]
    exact h.dividedPhase

end Osc.DividedPhaseAfter

end Sys2Proof.Machine

namespace Sys2Proof.Proofs

open Sys2Proof.Machine

/-- Settles O30: a tick adds the increment once, and the other commands of the stream keep both registers. -/
theorem phaseIsTicksTimesIncrement : Obligations.PhaseIsTicksTimesIncrement := by
  refine ⟨fun roms s ws hws => ?stream, fun _ _ => rfl, fun s => ⟨_, exec_reset s, rfl⟩⟩
  obtain ⟨t, ht, hmain⟩ := runStream_counts_ticks (roms := roms) (P := s.osc.MainPhaseAfter) Osc.MainPhaseAfter.tick
    (fun w hw htick _ _ _ _ hwrite h => h.keeps hwrite htick (hws w hw).1 (hws w hw).2) (.launch s.osc)
  rw [Nat.zero_add] at hmain
  exact ⟨t, ht, hmain.phase⟩

/-- Settles O31: under the divider 1 every tick advances both phases, and no command of the stream sets another divider. -/
theorem dividerOneKeepsThePhasesEqual : Obligations.DividerOneKeepsThePhasesEqual := by
  refine ⟨fun roms s ws hdivider hphases hws => ?stream, fun _ _ => ⟨rfl, rfl⟩, fun s => ⟨_, exec_reset s, rfl⟩⟩
  obtain ⟨t, ht, hequal⟩ := runStream_counts_ticks (roms := roms) (P := fun _ => Osc.PhasesEqual) (n := 0) Osc.PhasesEqual.tick
    (fun w hw _ _ _ _ _ hwrite h => h.keeps hwrite (hws w hw)) ⟨hdivider, hphases⟩
  exact ⟨t, ht, hequal.divider, hequal.phases⟩

/-- Settles O32: the count is the number of ticks modulo the divider whatever the pitch, and with a constant increment the divided
phase follows the quotient. -/
theorem dividedPhaseAdvancesOncePerWindow : Obligations.DividedPhaseAdvancesOncePerWindow := by
  intro roms s ws hd hcount hws
  obtain ⟨t, ht, hwindow⟩ := runStream_counts_ticks (roms := roms) (P := s.osc.WindowAfter) (fun h => h.tick hd)
    (fun w hw htick _ _ _ _ hwrite h => h.keeps hwrite htick (hws w hw).1 (hws w hw).2) (.launch hcount)
  rw [Nat.zero_add] at hwindow
  refine ⟨t, ht, hwindow.divider, hwindow.count, hwindow.atBoundary_iff hd, fun hpitch => ?constantPitch⟩
  obtain ⟨u, hu, hdivided⟩ := runStream_counts_ticks (roms := roms) (P := s.osc.DividedPhaseAfter) (fun h => h.tick hd)
    (fun w hw htick _ _ _ _ hwrite h => h.keeps hwrite htick (hws w hw).1 (hws w hw).2 (hpitch w hw)) (.launch hcount)
  rw [Nat.zero_add] at hdivided
  cases ht.symm.trans hu
  exact hdivided.dividedPhase

/-- Settles O14, by the writes of a tick read as numbers; on either side of the boundary the count and the divided phase follow. -/
theorem tickAdvancesPhaseAndDivider : Obligations.TickAdvancesPhaseAndDivider := by
  refine ⟨fun w => decode_of_opcode_six, fun s => ⟨_, exec_tick s, ?phase, ?divider, s.osc.tick_run, ?frame⟩⟩
  case phase =>
    rw [State.withOsc_osc, Osc.tick_phase, BitVec.toNat_add]
  case divider =>
    rw [State.withOsc_osc, Osc.tick_dividedPhase, Osc.tick_dividerCount_toNat]
    by_cases hb : s.osc.atBoundary = true
    · rw [if_pos (s.osc.atBoundary_iff.1 hb), if_pos hb, if_pos hb]
      exact ⟨BitVec.toNat_add _ _, rfl⟩
    · rw [if_neg (mt s.osc.atBoundary_iff.2 hb), if_neg hb, if_neg hb]
      exact ⟨rfl, rfl⟩
  case frame => exact congrArg s.withOsc s.osc.tick_eq_update

/-- Settles O33: `TICK` and `RESET` alone write `RUN`; one increment before the main phase wraps to 0, a tick ends Running. -/
theorem runFollowsTickAndReset : Obligations.RunFollowsTickAndReset := by
  refine ⟨fun i s => ?default, execWith_runState,
    stateBeforeWrap, _, stateBeforeWrap_inv, exec_tick _, ?running, stateBeforeWrap_tick_phase⟩
  case default =>
    rw [exec_eq_execWith_defaultRoms]
    exact execWith_runState Config.defaultRoms i s
  case running => exact RegisterWrite.runState_eq (.tick (roms := Config.defaultRoms) (b := stateBeforeWrap.build))

/-- Settles O12, by the word's opcode and the equation of `SETPHASE`. -/
theorem setphaseWritesInitialPhaseAlone : Obligations.SetphaseWritesInitialPhaseAlone :=
  ⟨fun _ => decode_of_opcode_four, fun s imm => exec_setphase imm s⟩

/-- Settles O13, by the equation of `RESET`; in Idle the registers it writes are 0 already (I6). -/
theorem resetIsATimingOnlyOperation : Obligations.ResetIsATimingOnlyOperation := by
  refine ⟨fun w => decode_of_opcode_five, exec_reset, fun s hinv hrun => ?idle⟩
  rw [exec_reset, hinv.resetTiming_eq_self hrun]
  rfl

end Sys2Proof.Proofs
end

section
/-! PROOFS. The statements of 43_renderer.md: the closed forms of the five shapes (R160 to R166), the level scaling and its bounds
(R168, R171), the `RENDER` and `SETLEVEL` commands (R156, R167, R169, R170), what a sample depends on (R157, R172), and that the build
parameters are constant (R6). The waves as functions of the phase's number stand first, then the scaling, then what `RENDER` reads,
then two runs that give the same samples, then the statements. -/

namespace Sys2Proof.Machine

/-! The ramp and the saw read the top half of the phase (R160, R161). -/

theorem extractLsb_top_half_toNat (p : Word32) : (p.extractLsb 31 16).toNat = p.toNat / 65536 := by
  rw [BitVec.extractLsb_toNat, Nat.shiftRight_eq_div_pow]
  omega

theorem rampWave_eq (p : Word32) : rampWave p = (p.toNat : Int) / 65536 - 32768 := by
  rw [rampWave, extractLsb_top_half_toNat, Int.natCast_ediv]
  rfl

theorem sawWave_eq (p : Word32) : sawWave p = 32767 - (p.toNat : Int) / 65536 := by
  rw [sawWave, extractLsb_top_half_toNat, Int.natCast_ediv]
  rfl

theorem sawWave_eq_neg_one_sub_rampWave (p : Word32) : sawWave p = -1 - rampWave p := by
  rw [sawWave_eq, rampWave_eq]
  omega

/-- Inverting bit 15 adds 2^15 modulo 2^16: the low 15 bits stay, and the top bit's other value is the carry that is lost. -/
theorem xor_top_bit_toNat (v : Word16) : (v ^^^ 0x8000#16).toNat = (v.toNat + 32768) % 65536 := by
  have hlow := Nat.xor_mod_two_pow (a := v.toNat) (b := 0x8000) (n := 15)
  have htop := Nat.xor_div_two_pow (a := v.toNat) (b := 0x8000) (n := 15)
  rw [show 0x8000 % 2 ^ 15 = 0 from rfl, Nat.xor_zero] at hlow
  rw [show 0x8000 / 2 ^ 15 = 1 from rfl] at htop
  rw [BitVec.toNat_xor]
  show v.toNat ^^^ 0x8000 = _
  obtain hbit | hbit : v.toNat / 2 ^ 15 = 0 ∨ v.toNat / 2 ^ 15 = 1 := by omega
  · rw [hbit, show 0 ^^^ 1 = 1 from rfl] at htop
    omega
  · rw [hbit, show 1 ^^^ 1 = 0 from rfl] at htop
    omega

theorem rampWave_bits (p : Word32) : BitVec.ofInt 16 (rampWave p) = p.extractLsb' 16 16 ^^^ 0x8000#16 := by
  apply BitVec.eq_of_toNat_eq
  rw [xor_top_bit_toNat, BitVec.extractLsb'_toNat, Nat.shiftRight_eq_div_pow, BitVec.toNat_ofInt, rampWave_eq]
  omega

/-- Minus one minus a number has the complement of its bits. -/
theorem ofInt_neg_one_sub (v : Int) : BitVec.ofInt 16 (-1 - v) = ~~~(BitVec.ofInt 16 v) := by
  rw [BitVec.not_eq_neg_add, BitVec.sub_eq_add_neg, ← BitVec.ofInt_neg, show (-1#16) = BitVec.ofInt 16 (-1) from rfl,
    ← BitVec.ofInt_add]
  congr 1
  omega

/-! The triangle (R162) and the trapezoid (R163). -/

/-- The three pieces of the triangle: up from the phase 0, down from a quarter cycle on, up again from three quarters on. -/
theorem triangleWave_pieces (p : Word32) :
    (p.toNat < 0x40000000 ∧ triangleWave p = p.toNat / 32768) ∨
      (0x40000000 ≤ p.toNat ∧ p.toNat < 0xC0000000 ∧ triangleWave p = 65535 - p.toNat / 32768) ∨
      (0xC0000000 ≤ p.toNat ∧ triangleWave p = p.toNat / 32768 - 131072) := by
  have hquarter : (p + 0x40000000#32).toNat = (p.toNat + 0x40000000) % 2 ^ 32 := BitVec.toNat_add _ _
  simp only [triangleWave]
  generalize p + 0x40000000#32 = q at hquarter
  have hlow : (q.extractLsb 30 15).toNat = q.toNat / 2 ^ 15 % 2 ^ 16 := by
    rw [BitVec.extractLsb_toNat, Nat.shiftRight_eq_div_pow]
  have hfold : q.getLsbD 31 = decide (2 ^ 31 ≤ q.toNat) := q.msb_eq_getLsbD_last.symm.trans q.msb_eq_decide
  rw [hlow, hfold]
  simp only [decide_eq_true_eq]
  split <;> omega

theorem triangleWave_eq_max_iff (p : Word32) : triangleWave p = 32767 ↔ 0x3FFF8000 ≤ p.toNat ∧ p.toNat ≤ 0x40007FFF := by
  have hpieces := triangleWave_pieces p
  omega

theorem triangleWave_eq_min_iff (p : Word32) : triangleWave p = -32768 ↔ 0xBFFF8000 ≤ p.toNat ∧ p.toNat ≤ 0xC0007FFF := by
  have hpieces := triangleWave_pieces p
  omega

/-- The falling half mirrors the rising half about -1/2. -/
theorem triangleWave_half_cycle (p : Word32) : triangleWave p + triangleWave (p + 0x80000000#32) = -1 := by
  have hhalf : (p + 0x80000000#32).toNat = (p.toNat + 0x80000000) % 2 ^ 32 := BitVec.toNat_add _ _
  have hp := triangleWave_pieces p
  have hq := triangleWave_pieces (p + 0x80000000#32)
  omega

theorem trapezoidWave_eq (k : Fin 16) (p : Word32) :
    trapezoidWave k p = max (-32768) (min 32767 (triangleWave p * 2 ^ k.val)) :=
  clamp_eq_max_min _ _ _ (by decide)

theorem trapezoidWave_one (p : Word32) : trapezoidWave 1 p = max (-32768) (min 32767 (triangleWave p * 2)) :=
  trapezoidWave_eq 1 p

theorem trapezoidWave_fifteen (p : Word32) : trapezoidWave 15 p = max (-32768) (min 32767 (triangleWave p * 32768)) :=
  trapezoidWave_eq 15 p

theorem trapezoidWave_one_eq_max_iff (p : Word32) :
    trapezoidWave 1 p = 32767 ↔ 0x20000000 ≤ p.toNat ∧ p.toNat ≤ 0x5FFFFFFF := by
  have hpieces := triangleWave_pieces p
  have hclip := trapezoidWave_one p
  omega

theorem trapezoidWave_one_eq_min_iff (p : Word32) :
    trapezoidWave 1 p = -32768 ↔ 0x9FFF8000 ≤ p.toNat ∧ p.toNat ≤ 0xE0007FFF := by
  have hpieces := triangleWave_pieces p
  have hclip := trapezoidWave_one p
  omega

/-! The sine (R164 to R166) is a chord between two neighbours of its table. -/

theorem sineIndex_val (p : Word32) : (sineIndex p).val = p.toNat / 2 ^ 24 := by
  show (p.extractLsb 31 24).toNat = _
  rw [BitVec.extractLsb_toNat, Nat.shiftRight_eq_div_pow]
  omega

theorem sineFraction_eq (p : Word32) : sineFraction p = p.toNat / 2 ^ 8 % 2 ^ 16 := by
  rw [sineFraction, BitVec.extractLsb_toNat, Nat.shiftRight_eq_div_pow]

/-- The point `f` of 65536 on the chord above entry `i` of a table. -/
def sineChord (table : List Int) (i f : Nat) : Int :=
  table.getD i 0 + (table.getD (i + 1) 0 - table.getD i 0) * f / 65536

theorem sineWave_eq_sineChord (rom : SineRom) (p : Word32) :
    sineWave rom p = sineChord (rom.entries.map BitVec.toInt) (p.toNat / 2 ^ 24) (p.toNat / 2 ^ 8 % 2 ^ 16) := by
  simp only [sineWave, sineChord, shr_eq_ediv, readSineRom_eq_getD, sineFraction_eq, Fin.val_castSucc, Fin.val_succ,
    sineIndex_val]
  rfl

theorem sineWave_sineRom (p : Word32) :
    sineWave Config.sineRom p = sineChord Config.sineTable (p.toNat / 2 ^ 24) (p.toNat / 2 ^ 8 % 2 ^ 16) := by
  rw [sineWave_eq_sineChord, sineRom_entries_toInt]

theorem sineChord_between (table : List Int) (i : Nat) {f : Nat} (hf : f ≤ 2 ^ 16) :
    min (table.getD i 0) (table.getD (i + 1) 0) ≤ sineChord table i f ∧
      sineChord table i f ≤ max (table.getD i 0) (table.getD (i + 1) 0) := by
  have h := interpolate_range hf (a := table.getD i 0) (b := table.getD (i + 1) 0)
    ⟨min_le_left _ _, le_max_left _ _⟩ ⟨min_le_right _ _, le_max_right _ _⟩
  rwa [shr_eq_ediv] at h

@[simp] theorem sineChord_start (table : List Int) (i : Nat) : sineChord table i 0 = table.getD i 0 := by
  simp [sineChord]

/-- Over the contents of R53 the entries lie in -32767..32767, and only entry 64 has the largest value. -/
theorem sineTable_entry (i : Fin 257) :
    -32767 ≤ Config.sineTable.getD i.val 0 ∧ Config.sineTable.getD i.val 0 ≤ 32767 ∧
      (Config.sineTable.getD i.val 0 = 32767 → i.val = 64) := by
  revert i
  decide +kernel

theorem sineChord_sineTable_range {i f : Nat} (hi : i < 256) (hf : f ≤ 2 ^ 16) :
    -32767 ≤ sineChord Config.sineTable i f ∧ sineChord Config.sineTable i f ≤ 32767 := by
  obtain ⟨hminA, hmaxA, -⟩ := sineTable_entry ⟨i, by omega⟩
  obtain ⟨hminB, hmaxB, -⟩ := sineTable_entry ⟨i + 1, by omega⟩
  have hbetween := sineChord_between Config.sineTable i hf
  simp only at hminA hmaxA hminB hmaxB
  omega

/-- A chord starts at its left entry and stays below a higher right one, so only the start of the chord above entry 64 is at the
maximum. -/
theorem sineChord_sineTable_eq_max_iff {i f : Nat} (hi : i < 256) (hf : f < 2 ^ 16) :
    sineChord Config.sineTable i f = 32767 ↔ i = 64 ∧ f = 0 := by
  constructor
  case mpr =>
    rintro ⟨rfl, rfl⟩
    decide
  case mp =>
    intro hmax
    obtain ⟨-, hA, hpeak⟩ := sineTable_entry ⟨i, by omega⟩
    obtain ⟨-, hB, -⟩ := sineTable_entry ⟨i + 1, by omega⟩
    simp only at hA hB hpeak
    by_cases hentry : Config.sineTable.getD i 0 = 32767
    case pos =>
      obtain rfl := hpeak hentry
      have hslope : sineChord Config.sineTable 64 f = 32767 + -10 * f / 65536 := rfl
      omega
    case neg =>
      unfold sineChord at hmax
      generalize Config.sineTable.getD i 0 = a at *
      generalize Config.sineTable.getD (i + 1) 0 = b at *
      have hrise : (b - a) * f ≤ (32767 - a) * 65535 :=
        Int.mul_le_mul (by omega) (by omega) (by omega) (by omega)
      omega

theorem sineWave_sineRom_eq_max_iff (p : Word32) :
    sineWave Config.sineRom p = 32767 ↔ 0x40000000 ≤ p.toNat ∧ p.toNat ≤ 0x400000FF := by
  rw [sineWave_sineRom, sineChord_sineTable_eq_max_iff (by omega) (by omega)]
  omega

/-- The end of the chord above entry 191 and the start of the one above entry 192. -/
theorem sineWave_sineRom_eq_min {p : Word32} (hlo : 0xBFFFFF00 ≤ p.toNat) (hhi : p.toNat ≤ 0xC00000FF) :
    sineWave Config.sineRom p = -32767 := by
  rw [sineWave_sineRom]
  obtain ⟨hi, hf⟩ | ⟨hi, hf⟩ : (p.toNat / 2 ^ 24 = 191 ∧ p.toNat / 2 ^ 8 % 2 ^ 16 = 65535) ∨
      (p.toNat / 2 ^ 24 = 192 ∧ p.toNat / 2 ^ 8 % 2 ^ 16 = 0) := by omega
  · rw [hi, hf]
    decide
  · rw [hi, hf]
    decide

/-- The first chord rises by 804, which in its first 82 points comes to less than 1. -/
theorem sineWave_sineRom_eq_zero {p : Word32} (h : p.toNat ≤ 0x000051FF) : sineWave Config.sineRom p = 0 := by
  have hi : p.toNat / 2 ^ 24 = 0 := by omega
  have hslope (f : Nat) : sineChord Config.sineTable 0 f = 0 + 804 * f / 65536 := rfl
  rw [sineWave_sineRom, hi, hslope]
  omega

theorem sineWave_sineRom_half_cycle {p : Word32} (hlo : 0x80000000 ≤ p.toNat) (hhi : p.toNat ≤ 0x800000FF) :
    sineWave Config.sineRom p = 0 := by
  have hi : p.toNat / 2 ^ 24 = 128 := by omega
  have hf : p.toNat / 2 ^ 8 % 2 ^ 16 = 0 := by omega
  rw [sineWave_sineRom, hi, hf]
  decide

/-! Level scaling (R168): an odd function of the wave, which for waves from 0 on is a floor division. -/

theorem scaleWave_of_nonneg {wave : Int} (h : 0 ≤ wave) (level : Nat) : scaleWave wave level = wave * level / 65536 :=
  Int.tdiv_eq_ediv_of_nonneg (by positivity)

theorem scaleWave_neg (wave : Int) (level : Nat) : scaleWave (-wave) level = -scaleWave wave level := by
  rw [scaleWave, Int.neg_mul, Int.neg_tdiv]
  rfl

@[simp] theorem scaleWave_level_zero (wave : Int) : scaleWave wave 0 = 0 := by
  simp [scaleWave]

@[simp] theorem scaleWave_zero (level : Nat) : scaleWave 0 level = 0 := by
  simp [scaleWave]

theorem scaleWave_mono_wave {v w : Int} (h : v ≤ w) (level : Nat) : scaleWave v level ≤ scaleWave w level :=
  Int.tdiv_le_tdiv (by decide) (Int.mul_le_mul_of_nonneg_right h (by positivity))

theorem scaleWave_mono_level {wave : Int} (h : 0 ≤ wave) {level higher : Nat} (hl : level ≤ higher) :
    scaleWave wave level ≤ scaleWave wave higher :=
  Int.tdiv_le_tdiv (by decide) (Int.mul_le_mul_of_nonneg_left (by exact_mod_cast hl) h)

theorem scaleWave_anti_level {wave : Int} (h : wave ≤ 0) {level higher : Nat} (hl : level ≤ higher) :
    scaleWave wave higher ≤ scaleWave wave level := by
  have hmirror := scaleWave_mono_level (wave := -wave) (by omega) hl
  rw [scaleWave_neg, scaleWave_neg] at hmirror
  omega

/-- A sample that is not 0 has the sign of the wave, because a wave on the other side of 0 gives a sample on that side. -/
theorem scaleWave_pos_iff {wave : Int} {level : Nat} (h : scaleWave wave level ≠ 0) :
    0 < scaleWave wave level ↔ 0 < wave := by
  have hpos (hw : 0 ≤ wave) : 0 ≤ scaleWave wave level := scaleWave_zero level ▸ scaleWave_mono_wave hw level
  have hneg (hw : wave ≤ 0) : scaleWave wave level ≤ 0 := scaleWave_zero level ▸ scaleWave_mono_wave hw level
  omega

theorem scaleWave_max_level_of_pos {wave : Int} (hpos : 1 ≤ wave) (hmax : wave ≤ 32768) :
    scaleWave wave 65535 = wave - 1 := by
  rw [scaleWave_of_nonneg (by omega)]
  omega

theorem scaleWave_max_level {wave : Int} (hlo : -32768 ≤ wave) (hhi : wave ≤ 32767) :
    scaleWave wave 65535 = if 1 ≤ wave then wave - 1 else if wave = 0 then 0 else wave + 1 := by
  split
  next hpos => exact scaleWave_max_level_of_pos hpos (by omega)
  next =>
    split
    next hzero => rw [hzero, scaleWave_zero]
    next =>
      have hmirror := scaleWave_max_level_of_pos (wave := -wave) (by omega) (by omega)
      rw [scaleWave_neg] at hmirror
      omega

/-! The bounds `hi(L)` and `lo(L)` of R171 are the samples of the largest and the smallest wave. -/

theorem scaleWave_largest (level : Nat) : scaleWave 32767 level = ((32767 * level / 65536 : Nat) : Int) := by
  rw [scaleWave_of_nonneg (by decide)]
  norm_cast

theorem scaleWave_neg_largest (level : Nat) : scaleWave (-32767) level = -((32767 * level / 65536 : Nat) : Int) := by
  rw [scaleWave_neg, scaleWave_largest]

theorem scaleWave_smallest (level : Nat) : scaleWave (-32768) level = -((level / 2 : Nat) : Int) := by
  rw [scaleWave_neg, scaleWave_of_nonneg (by decide)]
  omega

theorem scaleWave_bounds {wave : Int} (h : -32768 ≤ wave ∧ wave ≤ 32767) (level : Nat) :
    -((level / 2 : Nat) : Int) ≤ scaleWave wave level ∧
      scaleWave wave level ≤ ((32767 * level / 65536 : Nat) : Int) := by
  obtain ⟨hlo, hhi⟩ := h
  rw [← scaleWave_largest, ← scaleWave_smallest]
  exact ⟨scaleWave_mono_wave hlo level, scaleWave_mono_wave hhi level⟩

/-! `RENDER` (R169): the selector, the effective phase (R156), and the sample, which fits its register. -/

theorem shapeOf_eq (sel : BitVec 3) :
    shapeOf sel = if sel = 1#3 then .triangle else if sel = 2#3 then .trapezoid
      else if sel = 3#3 then .ramp else if sel = 4#3 then .saw else .sine := by
  revert sel
  decide

theorem Osc.sourcePhase_eq (o : Osc) (src : RenderSrc) :
    o.sourcePhase src = if src = .divided then o.dividedPhase else o.phase := by
  cases src <;> rfl

theorem Osc.effectivePhase_toNat (o : Osc) (src : RenderSrc) :
    (o.effectivePhase src).toNat =
      ((if src = .divided then o.dividedPhase else o.phase).toNat + o.initialPhase.toNat) % 2 ^ 32 := by
  rw [Osc.effectivePhase, Osc.sourcePhase_eq, BitVec.toNat_add]

theorem renderSample_toInt (rom : SineRom) (b : Build) (shape : Shape) (o : Osc) :
    (BitVec.ofInt 16 (renderSample rom b shape o)).toInt = renderSample rom b shape o := by
  have h := renderSample_range rom b shape o
  exact BitVec.toInt_ofInt_eq_self (by decide) (by omega) (by omega)

theorem sample_toInt_bounds (rom : SineRom) (b : Build) (shape : Shape) (o : Osc) :
    -((o.level.toNat / 2 : Nat) : Int) ≤ (BitVec.ofInt 16 (renderSample rom b shape o)).toInt ∧
      (BitVec.ofInt 16 (renderSample rom b shape o)).toInt ≤ ((32767 * o.level.toNat / 65536 : Nat) : Int) := by
  rw [renderSample_toInt]
  exact scaleWave_bounds (waveOf_range rom b shape _) o.level.toNat

/-- The sine of R53 does not reach -32768, so its samples do not fall below `-hi(L)`. -/
theorem renderSample_sine_lower_bound (b : Build) (o : Osc) :
    -((32767 * o.level.toNat / 65536 : Nat) : Int) ≤ renderSample Config.sineRom b .sine o := by
  rw [← scaleWave_neg_largest]
  apply scaleWave_mono_wave
  show -32767 ≤ sineWave Config.sineRom _
  rw [sineWave_sineRom]
  exact (sineChord_sineTable_range (by omega) (by omega)).1

theorem renderSample_level_zero (rom : SineRom) (b : Build) (shape : Shape) {o : Osc} (h : o.level = 0#16) :
    renderSample rom b shape o = 0 := by
  rw [renderSample, h]
  exact scaleWave_level_zero _

/-- A sample depends on nothing but the source phase, the offset, the level and the trapezoid's shift (R172). -/
theorem renderSample_congr (rom : SineRom) {b b' : Build} (shape : Shape) {o o' : Osc}
    (hshift : b'.trapShift = b.trapShift) (hphase : o'.sourcePhase b'.renderSrc = o.sourcePhase b.renderSrc)
    (hoffset : o'.initialPhase = o.initialPhase) (hlevel : o'.level = o.level) :
    renderSample rom b' shape o' = renderSample rom b shape o := by
  have hwave (p : Word32) : waveOf rom b' shape p = waveOf rom b shape p := by
    cases shape with
    | trapezoid => exact congrArg (trapezoidWave · p) hshift
    | sine | triangle | ramp | saw => rfl
  rw [renderSample, renderSample, Osc.effectivePhase, Osc.effectivePhase, hwave, hphase, hoffset, hlevel]

/-! `SETLEVEL` (R170). -/

theorem decode_of_opcode_three {w : CommandWord} (h : w.toNat / 2 ^ 32 = 3) :
    decode w = .setlevel (BitVec.ofNat 16 w.toNat) := by
  rw [← imm16Field_operandField]
  exact (OpcodeRow.Reads.setlevel (operandField w)).decode_eq (opcodeField_eq_of_toNat h).symm

/-! No step writes the build parameters (R6). -/

theorem stepWith_keeps_build (roms : Roms) (s : State) : ∃ t : State, stepWith roms s = .next t ∧ t.build = s.build := by
  cases hp : s.pending with
  | nil => exact ⟨s.idle, stepWith_nil hp, rfl⟩
  | cons w rest =>
    obtain ⟨t, ht, hbuild, -, -⟩ := execWith_completes roms (decode w) (s.accept rest)
    exact ⟨t, (stepWith_cons hp).trans ht, hbuild⟩

/-! With the main phase as the source, a run and the same run without its `SETDIV`s keep together all that a sample is made of:
the divided phase, the divider and the count may differ, and so may the data of a `READ` (R157). -/

/-- Equal in the registers of the main path: the main phase, its increment, the offset and the level. -/
structure Osc.SameMainPath (o o' : Osc) : Prop where
  phase : o'.phase = o.phase
  increment : o'.phaseIncrement = o.phaseIncrement
  offset : o'.initialPhase = o.initialPhase
  level : o'.level = o.level

/-- Every tick, boundary or not, adds the increment to the main phase (R136). -/
theorem Osc.SameMainPath.tick {o o' : Osc} (h : o.SameMainPath o') : o.tick.SameMainPath o'.tick where
  phase := by rw [Osc.tick_phase, Osc.tick_phase, h.phase, h.increment]
  increment := by rw [Osc.tick_phaseIncrement, Osc.tick_phaseIncrement, h.increment]
  offset := by rw [Osc.tick_initialPhase, Osc.tick_initialPhase, h.offset]
  level := by rw [Osc.tick_level, Osc.tick_level, h.level]

/-- Two states of one build with the main source that agree on the main path and have given the same samples. -/
structure State.SameMainPath (s u : State) : Prop where
  registers : s.osc.SameMainPath u.osc
  source : s.build.renderSrc = .main
  build : u.build = s.build
  samples : samplesOf u.responses = samplesOf s.responses

namespace State.SameMainPath

variable {s u : State}

theorem refl (h : s.build.renderSrc = .main) : s.SameMainPath s where
  registers := ⟨rfl, rfl, rfl, rfl⟩
  source := h
  build := rfl
  samples := rfl

theorem withOsc (h : s.SameMainPath u) {o o' : Osc} (ho : o.SameMainPath o') : (s.withOsc o).SameMainPath (u.withOsc o') :=
  { h with registers := ho }

theorem respondData (h : s.SameMainPath u) (v v' : Word32) : (s.respondData v).SameMainPath (u.respondData v') :=
  { h with
    samples := by
      rw [State.respondData_responses, State.respondData_responses, samplesOf_append_data, samplesOf_append_data, h.samples] }

theorem showSample (h : s.SameMainPath u) (v : Word16) : (s.showSample v).SameMainPath (u.showSample v) :=
  { h with
    registers := { h.registers with }
    samples := by
      rw [State.showSample_responses, State.showSample_responses, samplesOf_append_sample, samplesOf_append_sample, h.samples] }

theorem renderSample_eq (h : s.SameMainPath u) (rom : SineRom) (shape : Shape) :
    renderSample rom u.build shape u.osc = renderSample rom s.build shape s.osc := by
  have hphase : u.osc.sourcePhase s.build.renderSrc = s.osc.sourcePhase s.build.renderSrc := by
    rw [h.source]
    exact h.registers.phase
  rw [h.build]
  exact renderSample_congr rom shape rfl hphase h.registers.offset h.registers.level

theorem execWith (h : s.SameMainPath u) (roms : Roms) (i : Instr) :
    ∃ t v : State, Machine.execWith roms i s = .next t ∧ Machine.execWith roms i u = .next v ∧ t.SameMainPath v := by
  cases i with
  | setpitch imm => exact ⟨_, _, rfl, rfl, h.withOsc { h.registers with increment := rfl }⟩
  | setdiv imm => exact ⟨_, _, rfl, rfl, h.withOsc { h.registers with }⟩
  | setlevel imm => exact ⟨_, _, rfl, rfl, h.withOsc { h.registers with level := rfl }⟩
  | setphase imm => exact ⟨_, _, rfl, rfl, h.withOsc { h.registers with offset := rfl }⟩
  | reset => exact ⟨_, _, rfl, rfl, h.withOsc { h.registers with phase := rfl }⟩
  | tick => exact ⟨_, _, rfl, rfl, h.withOsc h.registers.tick⟩
  | render sel =>
    refine ⟨_, _, execWith_render roms sel s, execWith_render roms sel u, ?_⟩
    rw [h.renderSample_eq]
    exact h.showSample _
  | read rsel => exact ⟨_, _, rfl, rfl, h.respondData _ _⟩
  | nop | reserved9 | reservedA | reservedB | reservedC | reservedD | reservedE | reservedF => exact ⟨s, u, rfl, rfl, h⟩

/-- A `SETDIV` that only the first of the two runs executes. -/
theorem setdiv_left (h : s.SameMainPath u) {roms : Roms} {i : Instr} (hi : isSetdiv i = true) :
    ∃ t : State, Machine.execWith roms i s = .next t ∧ t.SameMainPath u := by
  cases i with
  | setdiv imm => exact ⟨_, execWith_setdiv roms imm s, { h with registers := { h.registers with } }⟩
  | _ => cases hi

/-- Along the stream the second run skips exactly the `SETDIV`s. -/
theorem runStream_without_setdivs (h : s.SameMainPath u) (roms : Roms) (ws : List CommandWord) :
    ∃ t v : State, runStream roms ws s = .next t ∧
      runStream roms (ws.filter fun w => !isSetdiv (decode w)) u = .next v ∧ t.SameMainPath v := by
  induction ws generalizing s u with
  | nil => exact ⟨_, _, runStream_nil roms s, runStream_nil roms u, { h with }⟩
  | cons w ws ih =>
    by_cases hw : isSetdiv (decode w) = true
    case pos =>
      have haccept : (State.accept { s with pending := w :: ws } ws).SameMainPath u := { h with }
      obtain ⟨t, ht, htu⟩ := haccept.setdiv_left (roms := roms) hw
      rw [runStream_cons ht, List.filter_cons_of_neg (by simp [hw])]
      exact ih htu
    case neg =>
      have hkeep : (!isSetdiv (decode w)) = true := by simpa using hw
      have haccept (rest : List CommandWord) :
          (State.accept { s with pending := w :: ws } ws).SameMainPath (State.accept { u with pending := w :: rest } rest) :=
        { h with }
      obtain ⟨t, v, ht, hv, htv⟩ := (haccept _).execWith roms (decode w)
      rw [runStream_cons ht, List.filter_cons_of_pos (p := fun w => !isSetdiv (decode w)) hkeep, runStream_cons hv]
      exact ih htv

end State.SameMainPath

/-! While the two phases are equal, the value of `RENDER_SRC` makes no difference (R142, R157). -/

/-- The state with `RENDER_SRC` replaced, all else kept. -/
def State.withSource (s : State) (src : RenderSrc) : State := { s with build := { s.build with renderSrc := src } }

theorem renderSample_withSource (rom : SineRom) (b : Build) (src : RenderSrc) (shape : Shape) {o : Osc}
    (h : o.dividedPhase = o.phase) : renderSample rom { b with renderSrc := src } shape o = renderSample rom b shape o := by
  have hsource (src : RenderSrc) : o.sourcePhase src = o.phase := by
    rw [Osc.sourcePhase_eq, h, ite_self]
  exact renderSample_congr rom shape rfl ((hsource _).trans (hsource _).symm) rfl rfl

theorem execWith_withSource {roms : Roms} {i : Instr} {s t : State} (src : RenderSrc) (hphases : s.osc.dividedPhase = s.osc.phase)
    (h : execWith roms i s = .next t) : execWith roms i (s.withSource src) = .next (t.withSource src) := by
  cases i <;> cases h
  case render sel =>
    rw [execWith_render, ← renderSample_withSource roms.sineRom s.build src (shapeOf sel) hphases]
    rfl
  all_goals rfl

/-- Under the divider 1 the phases stay equal, so the two runs differ in the build parameter alone. -/
theorem runStream_withSource {roms : Roms} {s : State} {ws : List CommandWord} (src : RenderSrc) (h : s.osc.PhasesEqual)
    (hws : ∀ w ∈ ws, ∀ imm : Word16, decode w = .setdiv imm → imm.toNat ≤ 1) :
    ∃ t : State, runStream roms ws s = .next t ∧ runStream roms ws (s.withSource src) = .next (t.withSource src) := by
  obtain ⟨t, v, ht, hv, -, htv⟩ : ∃ t v : State, runStream roms ws s = .next t ∧
      runStream roms ws (s.withSource src) = .next v ∧ t.osc.PhasesEqual ∧ v = t.withSource src := by
    refine runStream_related (R := fun s u => s.osc.PhasesEqual ∧ u = s.withSource src) ?pending ?accept ?command ⟨h, rfl⟩
    case pending | accept =>
      rintro s _ rest ⟨h, rfl⟩
      exact ⟨h, rfl⟩
    case command =>
      rintro w hw s _ ⟨h, rfl⟩
      obtain ⟨t, ht, -⟩ := execWith_completes roms (decode w) s
      exact ⟨t, _, ht, execWith_withSource src h.phases ht, h.keeps (registerWrite_of_execWith ht) (hws w hw), rfl⟩
  exact ⟨t, ht, htv ▸ hv⟩

end Sys2Proof.Machine

namespace Sys2Proof.Proofs

open Sys2Proof.Machine

/-- Settles O52: the run without `SETDIV`s agrees with the other on the main path, and with equal phases the source makes no
difference to any response. -/
theorem mainSourceIgnoresTheDivider : Obligations.MainSourceIgnoresTheDivider := by
  refine ⟨fun roms s ws hsource => ?withoutSetdivs, fun roms s ws hdivider hphases hws => ?otherSource⟩
  case withoutSetdivs =>
    obtain ⟨t, u, ht, hu, htu⟩ := (State.SameMainPath.refl hsource).runStream_without_setdivs roms ws
    exact ⟨t, u, ht, hu, htu.samples⟩
  case otherSource =>
    have hequal : s.osc.PhasesEqual := ⟨hdivider, hphases⟩
    obtain ⟨t, ht, hmain⟩ := runStream_withSource (roms := roms) .main hequal hws
    obtain ⟨u, hu, hdivided⟩ := runStream_withSource (roms := roms) .divided hequal hws
    cases ht.symm.trans hu
    exact ⟨_, _, hmain, hdivided, rfl⟩

/-- Settles O15: the word's selector passes the boundary of R81, the sample fits its register, and the frame is the record update of
`RENDER`. -/
theorem renderWritesTheScaledWave : Obligations.RenderWritesTheScaledWave := by
  refine ⟨fun w hop => ?decode, shapeOf_eq, fun _ _ _ => ⟨rfl, rfl, rfl, rfl, rfl⟩,
    fun s sel => ⟨_, s.osc.effectivePhase s.build.renderSrc, _, exec_render sel s, s.osc.effectivePhase_toNat _,
      renderSample_toInt _ _ _ _, rfl⟩,
    fun roms s sel => ⟨_, s.osc.effectivePhase s.build.renderSrc, _, execWith_render roms sel s, s.osc.effectivePhase_toNat _,
      renderSample_toInt _ _ _ _, rfl⟩⟩
  case decode =>
    rw [decode_of_opcode_seven hop, boundarySelector, BitVec.toNat_ofNat]
    rfl

/-- Settles O34: all clauses are about the number of the phase's top half. -/
theorem rampRisesAcrossTheCycle : Obligations.RampRisesAcrossTheCycle := by
  intro p
  have hp := rampWave_eq p
  obtain ⟨hmin, hmax⟩ := rampWave_range p
  refine ⟨hp, hmin, hmax, rampWave_bits p, by omega, by omega, by omega, fun hlast => ?rises⟩
  have hnext := rampWave_eq (p + 65536#32)
  have hadd : (p + 65536#32).toNat = (p.toNat + 65536) % 2 ^ 32 := BitVec.toNat_add _ _
  omega

/-- Settles O35: the saw is -1 minus the ramp, and its values follow the number of the phase's top half. -/
theorem sawMirrorsTheRamp : Obligations.SawMirrorsTheRamp := by
  intro p
  have hp := sawWave_eq p
  have hmirror := sawWave_eq_neg_one_sub_rampWave p
  obtain ⟨hmin, hmax⟩ := sawWave_range p
  refine ⟨hp, hmirror, ?complement, hmin, hmax, by omega, by omega, by omega, by omega⟩
  case complement => rw [hmirror, ofInt_neg_one_sub]

/-- Settles O36, by the three pieces of the triangle. -/
theorem triangleFoldsTheTopSeventeenBits : Obligations.TriangleFoldsTheTopSeventeenBits := by
  intro p
  have hp := triangleWave_pieces p
  obtain ⟨hmin, hmax⟩ := triangleWave_range p
  refine ⟨?law, hmin, hmax, triangleWave_eq_max_iff p, triangleWave_eq_min_iff p, by omega, by omega,
    triangleWave_half_cycle p⟩
  case law =>
    split
    next => omega
    next => split <;> omega

/-- Settles O37: the clip at the two shifts 1 and 15 over the pieces of the triangle. -/
theorem trapezoidClipsTheTriangle : Obligations.TrapezoidClipsTheTriangle := by
  intro p
  have hone := trapezoidWave_one p
  have hfifteen := trapezoidWave_fifteen p
  refine ⟨fun k => trapezoidWave_eq k p, ?zero, trapezoidWave_one_eq_max_iff p, trapezoidWave_one_eq_min_iff p,
    by omega, by omega, by omega, by omega⟩
  case zero =>
    obtain ⟨hmin, hmax⟩ := triangleWave_range p
    have hzero : trapezoidWave 0 p = max (-32768) (min 32767 (triangleWave p * 1)) := trapezoidWave_eq 0 p
    omega

/-- Settles O38: over any contents the sine is a point of a chord; the rest is where the chords of R53 start, end and turn. -/
theorem sineInterpolatesItsTable : Obligations.SineInterpolatesItsTable := by
  refine ⟨fun rom p a b f ha hb hf => ?anyRom, sineRom_entries_toInt, fun p a b f ha hb hf => ?defaultRom⟩
  case anyRom =>
    subst ha hb hf
    rw [sineWave_eq_sineChord]
    exact ⟨rfl, sineChord_between _ _ (by omega)⟩
  case defaultRom =>
    subst ha hb hf
    obtain ⟨hlo, hhi⟩ := sineChord_between Config.sineTable (p.toNat / 2 ^ 24) (f := p.toNat / 2 ^ 8 % 2 ^ 16) (by omega)
    obtain ⟨hmin, hmax⟩ := sineChord_sineTable_range (i := p.toNat / 2 ^ 24) (f := p.toNat / 2 ^ 8 % 2 ^ 16)
      (by omega) (by omega)
    rw [← sineWave_sineRom] at hlo hhi hmin hmax
    refine ⟨sineWave_sineRom p, hlo, hhi, hmin, hmax, fun hstart => ?start, fun q hq => ?lowBits,
      sineWave_sineRom_eq_max_iff p, sineWave_sineRom_eq_min, sineWave_sineRom_eq_zero, sineWave_sineRom_half_cycle⟩
    case start => rw [sineWave_sineRom, Int.natCast_eq_zero.1 hstart, sineChord_start]
    case lowBits =>
      have hindex : q.toNat / 2 ^ 24 = p.toNat / 2 ^ 24 := by omega
      rw [sineWave_sineRom, sineWave_sineRom, hindex, hq]

/-- Settles O39: the scaling is odd in the wave and monotone in both arguments, and its range leaves out 32767. -/
theorem levelScalesWithoutOffset : Obligations.LevelScalesWithoutOffset := by
  intro wave level hlo hhi hlevel
  obtain ⟨hmin, hmax⟩ := scaleWave_range ⟨hlo, hhi⟩ hlevel
  obtain ⟨-, hlargest⟩ := scaleWave_range (wave := 32767) (by decide) hlevel
  exact ⟨rfl, scaleWave_level_zero wave, scaleWave_zero level, scaleWave_neg wave level, scaleWave_pos_iff, hmin, by omega,
    fun _ hl _ => ⟨fun hw => scaleWave_mono_level hw hl, fun hw => scaleWave_anti_level hw hl⟩, by omega,
    scaleWave_max_level hlo hhi⟩

/-- Settles O40: the scaling is monotone in the wave, so the samples of the extreme waves bound all others, and each shape reaches
its extreme waves where its closed form says. -/
theorem samplesStayWithinTheirBounds : Obligations.SamplesStayWithinTheirBounds := by
  refine ⟨fun s sel => ?default, fun roms s sel => ?anyRoms, fun L rom b p hi lo _ hhi hlo => ?extremes⟩
  case default =>
    obtain ⟨hlower, hupper⟩ := sample_toInt_bounds Config.sineRom s.build (shapeOf sel) s.osc
    obtain ⟨hmin, hmax⟩ := sample_toInt_range Config.sineRom s.build (shapeOf sel) s.osc
    refine ⟨_, exec_render sel s, hlower, hupper, hmin, hmax, fun hsine => ?sine⟩
    rw [State.showSample_osc, renderSample_toInt, hsine]
    exact renderSample_sine_lower_bound s.build s.osc
  case anyRoms =>
    obtain ⟨hlower, hupper⟩ := sample_toInt_bounds roms.sineRom s.build (shapeOf sel) s.osc
    obtain ⟨hmin, hmax⟩ := sample_toInt_range roms.sineRom s.build (shapeOf sel) s.osc
    exact ⟨_, execWith_render roms sel s, hlower, hupper, hmin, hmax⟩
  case extremes =>
    subst hhi hlo
    have hlargest {w : Int} (h : w = 32767) : scaleWave w L = ((32767 * L / 65536 : Nat) : Int) := h ▸ scaleWave_largest L
    have hsmallest {w : Int} (h : w = -32768) : scaleWave w L = -((L / 2 : Nat) : Int) := h ▸ scaleWave_smallest L
    have hramp := rampWave_eq p
    have hsaw := sawWave_eq p
    refine ⟨fun h h' => hlargest ((sineWave_sineRom_eq_max_iff p).2 ⟨h, h'⟩), fun h => ?sineMin,
      fun h h' => hlargest ((triangleWave_eq_max_iff p).2 ⟨h, h'⟩),
      fun h h' => hsmallest ((triangleWave_eq_min_iff p).2 ⟨h, h'⟩),
      fun hk h h' => hlargest ?trapMax, fun hk h h' => hsmallest ?trapMin,
      fun h => hlargest ?rampMax, fun h => hsmallest ?rampMin, fun h => hlargest ?sawMax, fun h => hsmallest ?sawMin⟩
    case sineMin =>
      show scaleWave (sineWave Config.sineRom p) L = _
      rw [sineWave_sineRom_eq_min (by omega) (by omega), scaleWave_neg_largest]
    case trapMax => rw [waveOf, hk, (trapezoidWave_one_eq_max_iff p).2 ⟨h, h'⟩]
    case trapMin => rw [waveOf, hk, (trapezoidWave_one_eq_min_iff p).2 ⟨h, h'⟩]
    case rampMax | rampMin | sawMax | sawMin => simp only [waveOf]; omega

/-- Settles O11: the word's opcode, the equation of `SETLEVEL`, and that every wave scaled by 0 is 0. -/
theorem setlevelWritesLevelAlone : Obligations.SetlevelWritesLevelAlone := by
  refine ⟨fun _ => decode_of_opcode_three, fun s imm => exec_setlevel imm s, fun s sel hlevel =>
    ⟨⟨_, exec_render sel s, ?_⟩, fun roms => ⟨_, execWith_render roms sel s, ?_⟩⟩⟩
  · rw [State.showSample_osc, renderSample_level_zero _ _ _ hlevel]
    rfl
  · rw [State.showSample_osc, renderSample_level_zero _ _ _ hlevel]
    rfl

/-- Settles O41: the two renders compute one sample over any sine ROM, and each state shows it. -/
theorem renderDependsOnlyOnPhaseOffsetAndLevel : Obligations.RenderDependsOnlyOnPhaseOffsetAndLevel := by
  intro s u sel hbuild hphase hoffset hlevel
  have hsource : u.osc.sourcePhase u.build.renderSrc = s.osc.sourcePhase s.build.renderSrc := by
    rw [← hbuild, Osc.sourcePhase_eq, Osc.sourcePhase_eq]
    split at hphase
    next hdivided => rw [if_pos hdivided, if_pos hdivided, hphase]
    next hmain => rw [if_neg hmain, if_neg hmain, hphase]
  have hsample (rom : SineRom) :
      renderSample rom u.build (shapeOf sel) u.osc = renderSample rom s.build (shapeOf sel) s.osc :=
    renderSample_congr rom (shapeOf sel) (by rw [hbuild]) hsource hoffset.symm hlevel.symm
  refine ⟨⟨_, _, _, exec_render sel s, exec_render sel u, rfl, ?_, rfl, ?_⟩,
    fun roms => ⟨_, _, _, execWith_render roms sel s, execWith_render roms sel u, rfl, ?_, rfl, ?_⟩⟩
  all_goals
    rw [hsample]
    rfl

/-- Settles O53: an idle step and every command keep the build, and the build of reset is that of R6. -/
theorem buildParametersNeverChange : Obligations.BuildParametersNeverChange := by
  refine ⟨fun s => ?default, stepWith_keeps_build, rfl, rfl⟩
  case default =>
    rw [step_eq_stepWith_defaultRoms]
    exact stepWith_keeps_build Config.defaultRoms s

end Sys2Proof.Proofs
end

section
/-! PROOFS. The statements of 44_system.md: `NOP` and the reserved opcodes do nothing (R190, R192), so a word of theirs may stand
anywhere in a stream. Which words do nothing and what a step makes of them stand first, then the run of a stream in two parts, then
the states in which a later command finds the same, then the statements. -/

namespace Sys2Proof.Machine

/-! The words that do nothing, and a step that accepts one. -/

/-- The row that accepts the word has the word's opcode, so each row of the table is looked at once. -/
theorem isNoOperation_decode (w : CommandWord) :
    isNoOperation (decode w) = decide (w.toNat / 2 ^ 32 = 0 ∨ 9 ≤ w.toNat / 2 ^ 32) := by
  obtain ⟨r, hr, hread⟩ := exists_row w
  have hmem : r ∈ opcodeTable.filter fun r => r.accepts w := hr ▸ List.mem_singleton_self r
  obtain ⟨htable, haccepts⟩ := List.mem_filter.1 hmem
  rw [← opcodeField_toNat, ← (OpcodeRow.accepts_iff htable w).1 haccepts]
  generalize decode w = i at hread
  cases hread <;> rfl

theorem isNoOperation_decode_of_reserved {w : CommandWord} (h : 9 ≤ w.toNat / 2 ^ 32) : isNoOperation (decode w) = true :=
  (isNoOperation_decode w).trans (decide_eq_true (.inr h))

theorem decode_of_opcode_zero {w : CommandWord} (h : w.toNat / 2 ^ 32 = 0) : decode w = .nop :=
  (OpcodeRow.Reads.nop (operandField w)).decode_eq (opcodeField_eq_of_toNat h).symm

theorem execWith_of_isNoOperation (roms : Roms) {i : Instr} (h : isNoOperation i = true) (s : State) :
    execWith roms i s = .next s := by
  cases i with
  | nop | reserved9 | reservedA | reservedB | reservedC | reservedD | reservedE | reservedF => rfl
  | setpitch | setdiv | setlevel | setphase | reset | tick | render | read => cases h

/-- Only the acceptance of the word is seen (R34). -/
theorem stepWith_of_isNoOperation (roms : Roms) {s : State} {w : CommandWord} {rest : List CommandWord}
    (hw : isNoOperation (decode w) = true) (hp : s.pending = w :: rest) : stepWith roms s = .next (s.accept rest) :=
  (stepWith_cons hp).trans (execWith_of_isNoOperation roms hw _)

/-! The run of a stream completes, and is the run of its parts in order (R251): no command looks at the words behind it. -/

theorem runStream_completes (roms : Roms) (ws : List CommandWord) (s : State) : ∃ t : State, runStream roms ws s = .next t := by
  induction ws generalizing s with
  | nil => exact ⟨_, runStream_nil roms s⟩
  | cons w ws ih =>
    obtain ⟨t, ht, -⟩ := execWith_completes roms (decode w) (State.accept { s with pending := w :: ws } ws)
    rw [runStream_cons ht]
    exact ih t

theorem execWith_withPending {roms : Roms} {i : Instr} {s t : State} (ws : List CommandWord)
    (h : execWith roms i s = .next t) : execWith roms i { s with pending := ws } = .next { t with pending := ws } := by
  cases i <;> cases h <;> rfl

theorem runStream_append {roms : Roms} {us : List CommandWord} (vs : List CommandWord) {s t : State}
    (h : runStream roms us s = .next t) : runStream roms (us ++ vs) s = runStream roms vs t := by
  induction us generalizing s with
  | nil =>
    cases h
    rfl
  | cons w us ih =>
    obtain ⟨u, hu, -⟩ := execWith_completes roms (decode w) (State.accept { s with pending := w :: us } us)
    rw [runStream_cons hu] at h
    calc runStream roms (w :: us ++ vs) s
      _ = runStream roms (us ++ vs) { u with pending := us ++ vs } := runStream_cons (execWith_withPending (us ++ vs) hu)
      _ = runStream roms vs t := ih h

/-! An inserted word that does nothing leaves its trace in the pulses and the index alone, and no command reads these. -/

/-- The state with other pulses, another stream and another index. -/
def State.withAcceptance (s : State) (sampleValid rdataValid : Bool) (ws : List CommandWord) (n : Nat) : State :=
  { s with ports := { s.ports with sampleValid := sampleValid, rdataValid := rdataValid }, pending := ws, index := n }

/-- The states agree in the registers, the build, `rdata` and the responses. -/
def State.AgreesButAcceptance (s u : State) : Prop :=
  ∃ (sv rv : Bool) (ws : List CommandWord) (n : Nat), u = s.withAcceptance sv rv ws n

namespace State.AgreesButAcceptance

variable {s u : State}

theorem osc_eq (h : s.AgreesButAcceptance u) : u.osc = s.osc := by
  obtain ⟨sv, rv, ws, n, rfl⟩ := h
  rfl

theorem responses_eq (h : s.AgreesButAcceptance u) : u.responses = s.responses := by
  obtain ⟨sv, rv, ws, n, rfl⟩ := h
  rfl

theorem rdataPort_eq (h : s.AgreesButAcceptance u) : u.rdataPort = s.rdataPort := by
  obtain ⟨sv, rv, ws, n, rfl⟩ := h
  rfl

theorem withPending (h : s.AgreesButAcceptance u) (rest : List CommandWord) :
    { s with pending := rest }.AgreesButAcceptance { u with pending := rest } := by
  obtain ⟨sv, rv, ws, n, rfl⟩ := h
  exact ⟨sv, rv, rest, n, rfl⟩

/-- Acceptance lowers the pulses of both states. -/
theorem accept (h : s.AgreesButAcceptance u) (rest : List CommandWord) :
    (s.accept rest).AgreesButAcceptance (u.accept rest) := by
  obtain ⟨sv, rv, ws, n, rfl⟩ := h
  exact ⟨false, false, rest, n + 1, rfl⟩

/-- A `RENDER` and a `READ` raise their own pulse in both states; the other commands leave the pulses alone. -/
theorem execWith (h : s.AgreesButAcceptance u) (roms : Roms) (i : Instr) :
    ∃ t v : State, Machine.execWith roms i s = .next t ∧ Machine.execWith roms i u = .next v ∧ t.AgreesButAcceptance v := by
  obtain ⟨sv, rv, ws, n, rfl⟩ := h
  cases i with
  | render sel => exact ⟨_, _, rfl, rfl, true, rv, ws, n, rfl⟩
  | read rsel => exact ⟨_, _, rfl, rfl, sv, true, ws, n, rfl⟩
  | _ => exact ⟨_, _, rfl, rfl, sv, rv, ws, n, rfl⟩

theorem runStream (h : s.AgreesButAcceptance u) (roms : Roms) (ws : List CommandWord) :
    ∃ t v : State, Machine.runStream roms ws s = .next t ∧ Machine.runStream roms ws u = .next v ∧
      t.AgreesButAcceptance v :=
  runStream_related (fun rest h => h.withPending rest) (fun rest h => h.accept rest)
    (fun w _ _ _ h => h.execWith roms (decode w)) h

end State.AgreesButAcceptance

theorem State.agreesButAcceptance_accept (s : State) (ws rest : List CommandWord) :
    s.AgreesButAcceptance (State.accept { s with pending := ws } rest) :=
  ⟨false, false, rest, s.index + 1, rfl⟩

/-- Up to the inserted word the two streams run alike; the word does nothing; behind it both run the same words. -/
theorem runStream_insert_noOperation (roms : Roms) (s : State) (ws vs : List CommandWord) {w : CommandWord}
    (hw : isNoOperation (decode w) = true) :
    ∃ t u : State, runStream roms (ws ++ vs) s = .next t ∧ runStream roms (ws ++ w :: vs) s = .next u ∧
      t.AgreesButAcceptance u := by
  obtain ⟨m, hm⟩ := runStream_completes roms ws s
  rw [runStream_append vs hm, runStream_append (w :: vs) hm, runStream_cons (execWith_of_isNoOperation roms hw _)]
  exact (m.agreesButAcceptance_accept (w :: vs) vs).runStream roms vs

end Sys2Proof.Machine

namespace Sys2Proof.Proofs

open Sys2Proof.Machine

/-- Settles O50: the two runs agree but for the pulses and the index. -/
theorem nopsMayBeInsertedAnywhere : Obligations.NopsMayBeInsertedAnywhere := by
  refine ⟨exec_nop, fun w => decode_of_opcode_zero, fun roms s ws vs w hw => ?_⟩
  obtain ⟨t, u, ht, hu, htu⟩ := runStream_insert_noOperation roms s ws vs hw
  exact ⟨t, u, ht, hu, htu.osc_eq, htu.responses_eq, htu.rdataPort_eq⟩

/-- Settles O8: a step that accepts a word that does nothing, reserved or `NOP`, ends with the acceptance of that word. -/
theorem reservedOpcodesExecuteAsNop : Obligations.ReservedOpcodesExecuteAsNop := by
  refine ⟨fun s => ⟨exec_reserved9 s, exec_reservedA s, exec_reservedB s, exec_reservedC s, exec_reservedD s, exec_reservedE s,
    exec_reservedF s⟩, fun s w rest hw hp => ?_⟩
  have hreserved (roms : Roms) : stepWith roms s = .next (s.accept rest) :=
    stepWith_of_isNoOperation roms (isNoOperation_decode_of_reserved hw) hp
  have hnop (roms : Roms) : stepWith roms { s with pending := 0x000000000#36 :: rest } = .next (s.accept rest) :=
    stepWith_of_isNoOperation roms (w := 0x000000000#36) (by decide) rfl
  rw [step_eq_stepWith_defaultRoms, step_eq_stepWith_defaultRoms]
  exact ⟨(hreserved _).trans (hnop _).symm, fun roms => (hreserved roms).trans (hnop roms).symm,
    s.accept rest, hreserved _, rfl, rfl, rfl, rfl, rfl, rfl⟩

end Sys2Proof.Proofs
end

section
/-! PROOFS. The statements of 70_reset_and_hazards.md: the order of the setters (R233), the samples after `RESET` (R232, R234), the
merge of the two contexts (R240), a repeated `RENDER` (R243), a `SETDIV` inside a window (R245), and the end and the responses of a
run (R251). What holds all along a stream stands first, then the responses and the merge, then a row of `TICK`s and the window it
runs through, then what a sample is made of, then the statements. -/

namespace Sys2Proof.Machine

/-! A property of the state along a stream: it is enough that the commands of the stream keep it. -/

theorem runStream_keeps {roms : Roms} {Q : State → Prop} {ws : List CommandWord}
    (hpending : ∀ {s : State} (rest : List CommandWord), Q s → Q { s with pending := rest })
    (haccept : ∀ {s : State} (rest : List CommandWord), Q s → Q (s.accept rest))
    (hexec : ∀ w ∈ ws, ∀ {s t : State}, execWith roms (decode w) s = .next t → Q s → Q t) {s : State} (h : Q s) :
    ∃ t : State, runStream roms ws s = .next t ∧ Q t := by
  induction ws generalizing s with
  | nil => exact ⟨_, runStream_nil roms s, hpending [] h⟩
  | cons w ws ih =>
    obtain ⟨t, ht, -⟩ := execWith_completes roms (decode w) (State.accept { s with pending := w :: ws } ws)
    rw [runStream_cons ht]
    exact ih (fun w' hw' => hexec w' (List.mem_cons_of_mem w hw')) (hexec w List.mem_cons_self ht (haccept ws (hpending (w :: ws) h)))

theorem runStream_keeps_invOver {roms : Roms} (ws : List CommandWord) {s : State} (h : s.InvOver roms) :
    ∃ t : State, runStream roms ws s = .next t ∧ t.InvOver roms :=
  runStream_keeps (Q := fun s => s.InvOver roms) (fun _ h => h) (fun _ h => h)
    (fun _ _ _ _ hexec h => (registerWrite_of_execWith hexec).keeps_inv h) h

/-! The responses of a run (R251): one for each `RENDER` and each `READ`, in command order. -/

theorem givesResponse_eq_isSome (i : Instr) : givesResponse i = (responseKind i).isSome := by
  cases i <;> rfl

theorem responseKind_of_silent {i : Instr} (h : givesResponse i = false) : responseKind i = none := by
  rwa [givesResponse_eq_isSome, Option.isSome_eq_false_iff, Option.isNone_iff_eq_none] at h

theorem PortWrite.responses_append {s t : State} {i : Instr} (h : PortWrite s t i) :
    ∃ rs : List Response, t.responses = s.responses ++ rs ∧ rs.map kindOf = (responseKind i).toList := by
  cases h with
  | silent hi _ _ hresponses => exact ⟨[], by rw [hresponses, List.append_nil], by rw [responseKind_of_silent hi]; rfl⟩
  | sample sel v _ _ hresponses => exact ⟨[.sample v], hresponses, rfl⟩
  | data rsel v _ _ hresponses => exact ⟨[.data v], hresponses, rfl⟩

/-- The kinds of the responses that a stream calls for, in command order. -/
def responseKinds (ws : List CommandWord) : List ResponseKind := ws.filterMap fun w => responseKind (decode w)

theorem responseKinds_cons (w : CommandWord) (ws : List CommandWord) :
    responseKinds (w :: ws) = (responseKind (decode w)).toList ++ responseKinds ws := by
  rw [responseKinds, List.filterMap_cons]
  cases responseKind (decode w) <;> rfl

theorem length_responseKinds (ws : List CommandWord) :
    (responseKinds ws).length = ws.countP fun w => givesResponse (decode w) := by
  simp only [givesResponse_eq_isSome]
  exact List.length_filterMap_eq_countP

theorem runStream_responds (roms : Roms) (ws : List CommandWord) (s : State) :
    ∃ (t : State) (rs : List Response), runStream roms ws s = .next t ∧ t.pending = [] ∧ t.index = s.index + ws.length ∧
      t.responses = s.responses ++ rs ∧ rs.map kindOf = responseKinds ws := by
  induction ws generalizing s with
  | nil => exact ⟨_, [], runStream_nil roms s, rfl, rfl, (List.append_nil _).symm, rfl⟩
  | cons w ws ih =>
    obtain ⟨u, hu, -, -, hindex⟩ := execWith_completes roms (decode w) (State.accept { s with pending := w :: ws } ws)
    obtain ⟨qs, hqs, hkind⟩ := (portWrite_of_execWith hu).responses_append
    obtain ⟨t, rs, ht, hpending, htindex, hrs, hkinds⟩ := ih u
    refine ⟨t, qs ++ rs, (runStream_cons hu).trans ht, hpending, ?index, ?responses, ?kinds⟩
    case index =>
      rw [htindex, hindex, State.accept_index, List.length_cons, Nat.add_right_comm, Nat.add_assoc]
    case responses => rw [hrs, hqs, State.accept_responses, List.append_assoc]
    case kinds => rw [List.map_append, hkind, hkinds, responseKinds_cons]

theorem runStream_extends_responses {roms : Roms} {ws : List CommandWord} {s t : State}
    (h : runStream roms ws s = .next t) : s.responses <+: t.responses := by
  obtain ⟨u, rs, hu, -, -, hrs, -⟩ := runStream_responds roms ws s
  cases h.symm.trans hu
  exact ⟨rs, hrs.symm⟩

/-! The merge of the two contexts (R240): each place of the schedule takes the next command of one of them. -/

theorem mergeStreams_keeps_order {α : Type} {schedule : List Context} {xs ys ws : List α}
    (h : mergeStreams schedule xs ys = some ws) :
    xs.Sublist ws ∧ ys.Sublist ws ∧ ws.length = xs.length + ys.length := by
  induction schedule, xs, ys using mergeStreams.induct generalizing ws with
  | case1 =>
    cases h
    exact ⟨.slnil, .slnil, rfl⟩
  | case2 schedule x xs ys ih =>
    obtain ⟨vs, hvs, rfl⟩ := Option.map_eq_some_iff.1 h
    obtain ⟨hxs, hys, hlength⟩ := ih hvs
    refine ⟨hxs.cons_cons x, hys.cons x, ?_⟩
    rw [List.length_cons, List.length_cons, hlength]
    omega
  | case3 schedule xs y ys ih =>
    obtain ⟨vs, hvs, rfl⟩ := Option.map_eq_some_iff.1 h
    obtain ⟨hxs, hys, hlength⟩ := ih hvs
    refine ⟨hxs.cons y, hys.cons_cons y, ?_⟩
    rw [List.length_cons, List.length_cons, hlength]
    omega
  | case4 => simp [mergeStreams] at h

/-! A row of `TICK`s, and the window it runs through (R137). -/

theorem runStream_cons_encode {roms : Roms} {i : Instr} (hi : i.wellFormed = true) {ws : List CommandWord} {s t : State}
    (h : execWith roms i (State.accept { s with pending := encode i :: ws } ws) = .next t) :
    runStream roms (encode i :: ws) s = runStream roms ws t :=
  runStream_cons (by rwa [Proofs.decodeUndoesEncode i hi])

theorem runStream_ticks (roms : Roms) (k : Nat) (s : State) :
    ∃ t : State, runStream roms (List.replicate k (encode .tick)) s = .next t ∧ t.build = s.build ∧
      t.osc = Osc.tick^[k] s.osc := by
  induction k generalizing s with
  | zero => exact ⟨_, runStream_nil roms s, rfl, rfl⟩
  | succ k ih =>
    rw [List.replicate_succ, runStream_cons_encode rfl (execWith_tick roms _)]
    exact ih _

namespace Osc.DividedPhaseAfter

variable {start o : Osc} {n : Nat}

/-- A count inside the window is the number of ticks since the window's start. -/
theorem launch_inside_window (h : o.countInWindow) : o.DividedPhaseAfter o.dividerCount.toNat o where
  divider := rfl
  count := (Nat.mod_eq_of_lt h).symm
  increment := rfl
  dividedPhase := by rw [Nat.div_eq_of_lt h, Nat.zero_mul, Nat.add_zero, Nat.mod_eq_of_lt o.dividedPhase.isLt]

theorem ticks (h : start.DividedPhaseAfter n o) (hd : 1 ≤ start.divider.toNat) (k : Nat) :
    start.DividedPhaseAfter (n + k) (Osc.tick^[k] o) := by
  induction k with
  | zero => exact h
  | succ k ih =>
    rw [Function.iterate_succ_apply']
    exact ih.tick hd

/-- Before the window closes. -/
theorem eq_of_lt (h : start.DividedPhaseAfter n o) (hn : n < start.divider.toNat) :
    o.dividerCount.toNat = n ∧ o.dividedPhase = start.dividedPhase := by
  refine ⟨h.count.trans (Nat.mod_eq_of_lt hn), BitVec.eq_of_toNat_eq ?_⟩
  rw [h.dividedPhase, Nat.div_eq_of_lt hn, Nat.zero_mul, Nat.add_zero, Nat.mod_eq_of_lt start.dividedPhase.isLt]

/-- When the window has just closed. -/
theorem eq_of_window (h : start.DividedPhaseAfter start.divider.toNat o) (hd : 1 ≤ start.divider.toNat) :
    o.dividerCount.toNat = 0 ∧
      o.dividedPhase.toNat = (start.dividedPhase.toNat + start.phaseIncrement.toNat) % 2 ^ 32 := by
  refine ⟨h.count.trans (Nat.mod_self _), ?_⟩
  rw [h.dividedPhase, Nat.div_self hd, Nat.one_mul]

end Osc.DividedPhaseAfter

/-! `SETDIV` against the running window (R245), and against `SETPITCH` (R233). -/

theorem dividerOf_eq_self {imm : Word16} (h : 1 ≤ imm.toNat) : dividerOf imm = imm := if_neg (by omega)

theorem Osc.setDivider_atBoundary {o : Osc} {d : Word16} (h : d.toNat ≤ o.dividerCount.toNat) :
    (o.setDivider d).atBoundary = true := by
  rw [Osc.atBoundary_iff, Osc.setDivider_divider, Osc.setDivider_dividerCount]
  omega

/-- Each setter computes `dividedPitch` from the new pair, and whichever comes last finds both halves of it (I3). -/
theorem Osc.setDivider_setPitch_comm (o : Osc) (rom : PitchRom) (p d : Word16) :
    (o.setPitch rom p).setDivider d = (o.setDivider d).setPitch rom p := rfl

/-! What a sample is made of (R155): the source phase, the offset, the level and the build. -/

/-- Two states in which a `RENDER` reads the same. -/
structure State.SameRenderInputs (s t : State) : Prop where
  build : t.build = s.build
  phase : t.osc.sourcePhase s.build.renderSrc = s.osc.sourcePhase s.build.renderSrc
  offset : t.osc.initialPhase = s.osc.initialPhase
  level : t.osc.level = s.osc.level

namespace State.SameRenderInputs

variable {s t u : State}

theorem renderSample_eq (h : s.SameRenderInputs t) (rom : SineRom) (shape : Shape) :
    renderSample rom t.build shape t.osc = renderSample rom s.build shape s.osc := by
  rw [h.build]
  exact renderSample_congr rom shape rfl h.phase h.offset h.level

theorem showSample (s : State) (v : Word16) : s.SameRenderInputs (s.showSample v) := ⟨rfl, rfl, rfl, rfl⟩

/-- `SETLEVEL`, `SETPHASE`, `RESET` and `TICK` alone write what a `RENDER` reads (R243). -/
theorem execWith (h : s.SameRenderInputs t) {roms : Roms} {i : Instr} (hi : disturbsRender i = false)
    (hexec : Machine.execWith roms i t = .next u) : s.SameRenderInputs u := by
  cases i with
  | setlevel | setphase | reset | tick => cases hi
  | nop | setpitch | setdiv | render | read | reserved9 | reservedA | reservedB | reservedC | reservedD | reservedE
    | reservedF =>
    cases hexec
    exact { h with }

theorem runStream (h : s.SameRenderInputs t) (roms : Roms) {ws : List CommandWord}
    (hws : ∀ w ∈ ws, disturbsRender (decode w) = false) :
    ∃ u : State, Machine.runStream roms ws t = .next u ∧ s.SameRenderInputs u :=
  runStream_keeps (fun _ h => { h with }) (fun _ h => { h with }) (fun w hw _ _ hexec h => h.execWith (hws w hw) hexec) h

end State.SameRenderInputs

/-- What one tick keeps, a row of ticks keeps. -/
theorem Osc.ticks_keep {α : Type} {register : Osc → α} (h : ∀ o : Osc, register o.tick = register o) (k : Nat) (o : Osc) :
    register (Osc.tick^[k] o) = register o :=
  congrFun (Function.iterate_invariant (funext h) k) o

/-! The samples of phase 0 (R232). -/

theorem Osc.resetTiming_effectivePhase (o : Osc) (src : RenderSrc) : o.resetTiming.effectivePhase src = o.initialPhase := by
  cases src <;> exact BitVec.zero_add _

theorem renderSample_resetTiming (rom : SineRom) (b : Build) (shape : Shape) (o : Osc) :
    renderSample rom b shape o.resetTiming = scaleWave (waveOf rom b shape o.initialPhase) o.level.toNat := by
  rw [renderSample, Osc.resetTiming_effectivePhase, Osc.resetTiming_level]

theorem triangleWave_phase_zero : triangleWave 0#32 = 0 := by decide

theorem trapezoidWave_phase_zero (k : Fin 16) : trapezoidWave k 0#32 = 0 := by
  rw [trapezoidWave_eq, triangleWave_phase_zero, Int.zero_mul]
  rfl

theorem waveOf_phase_zero {rom : SineRom} (b : Build) {shape : Shape} (hrom : shape = .sine → rom = Config.sineRom) :
    waveOf rom b shape 0#32 = if shape = .ramp then -32768 else if shape = .saw then 32767 else 0 := by
  cases shape with
  | sine =>
    rw [hrom rfl]
    exact sineWave_sineRom_eq_zero (Nat.zero_le _)
  | triangle => exact triangleWave_phase_zero
  | trapezoid => exact trapezoidWave_phase_zero b.trapShift
  | ramp => exact rampWave_eq 0#32
  | saw => exact sawWave_eq 0#32

theorem shapeOf_eq_ramp_iff (sel : BitVec 3) : shapeOf sel = .ramp ↔ sel = 3#3 := by
  revert sel
  decide

theorem shapeOf_eq_saw_iff (sel : BitVec 3) : shapeOf sel = .saw ↔ sel = 4#3 := by
  revert sel
  decide

/-- The ramp starts at the smallest wave, the saw at the largest, and the other shapes at 0. -/
theorem sample_phase_zero {rom : SineRom} (b : Build) {sel : BitVec 3} (hrom : shapeOf sel = .sine → rom = Config.sineRom)
    (level : Nat) :
    scaleWave (waveOf rom b (shapeOf sel) 0#32) level =
      if sel = 3#3 then -((level / 2 : Nat) : Int)
      else if sel = 4#3 then ((32767 * level / 65536 : Nat) : Int) else 0 := by
  rw [waveOf_phase_zero b hrom]
  simp only [shapeOf_eq_ramp_iff, shapeOf_eq_saw_iff]
  split
  next => exact scaleWave_smallest level
  next =>
    split
    next => exact scaleWave_largest level
    next => exact scaleWave_zero level

end Sys2Proof.Machine

namespace Sys2Proof.Proofs

open Sys2Proof.Machine

/-- Settles O47: a run completes and gives its responses in command order, and a cut stream runs as its two parts. -/
theorem everyStreamRunsToItsEnd : Obligations.EveryStreamRunsToItsEnd := by
  intro roms s ws
  obtain ⟨t, rs, ht, hpending, hindex, hrs, hkinds⟩ := runStream_responds roms ws s
  refine ⟨t, rs, ht, hpending, hindex, hrs, ?length, hkinds, fun us vs hcut => ?cut⟩
  case length => rw [← length_responseKinds, ← hkinds, List.length_map]
  case cut =>
    obtain ⟨u, hu⟩ := runStream_completes roms us s
    have hvs : runStream roms vs u = .next t := by rw [← runStream_append vs hu, ← hcut, ht]
    exact ⟨u, hu, hvs, runStream_extends_responses hvs⟩

/-- Settles O54: the merge keeps the order of each context, and the run of any stream keeps the invariants. -/
theorem scheduledStreamsKeepOrderAndInvariants : Obligations.ScheduledStreamsKeepOrderAndInvariants := by
  intro roms schedule ticks configs ws s hinv hmerge
  obtain ⟨hticks, hconfigs, hlength⟩ := mergeStreams_keeps_order hmerge
  obtain ⟨t, ht, hinv'⟩ := runStream_keeps_invOver ws hinv
  refine ⟨hticks, hconfigs, hlength, t, ?run, hinv'⟩
  rw [runMerged, hmerge, Option.map_some, ht]

/-- Settles O42: neither the first `RENDER` nor the stream changes what the second `RENDER` reads. -/
theorem renderIsIdempotentUntilDisturbed : Obligations.RenderIsIdempotentUntilDisturbed := by
  intro roms s sel ws hws
  obtain ⟨u, hu, hsame⟩ := (State.SameRenderInputs.showSample s _).runStream roms hws
  refine ⟨_, u, _, execWith_render roms sel s, hu, execWith_render roms sel u, ?_⟩
  exact congrArg (BitVec.ofInt 16) (hsame.renderSample_eq roms.sineRom (shapeOf sel))

/-- Settles O43: `RESET` leaves the offset as the effective phase of either source, and the waves at phase 0 are known. -/
theorem renderAfterResetIsAtTheOffset : Obligations.RenderAfterResetIsAtTheOffset := by
  intro roms s sel
  have hsample : (BitVec.ofInt 16 (renderSample roms.sineRom s.build (shapeOf sel) s.osc.resetTiming)).toInt =
      scaleWave (waveOf roms.sineRom s.build (shapeOf sel) s.osc.initialPhase) s.osc.level.toNat := by
    rw [renderSample_toInt, renderSample_resetTiming]
  refine ⟨_, _, execWith_reset roms s, execWith_render roms sel _, rfl, hsample, fun hoffset hrom => ?phaseZero⟩
  refine hsample.trans ?_
  rw [hoffset]
  exact sample_phase_zero s.build hrom s.osc.level.toNat

/-- Settles O44: `RESET` opens a window, which fewer ticks than the divider do not close; until it closes a tick writes nothing that
a `RENDER` of the divided phase reads. -/
theorem firstStepsAfterResetRepeatTheIdleSample : Obligations.FirstStepsAfterResetRepeatTheIdleSample := by
  intro roms s sel k hsource hk
  obtain ⟨v, hv, hbuild, hticks⟩ := runStream_ticks roms k (s.withOsc s.osc.resetTiming)
  rw [State.withOsc_osc] at hticks
  have hd : 1 ≤ s.osc.resetTiming.divider.toNat := Nat.one_le_of_lt hk
  have hwindow : s.osc.resetTiming.DividedPhaseAfter (0 + k) v.osc :=
    hticks ▸ (Osc.DividedPhaseAfter.launch rfl).ticks hd k
  obtain ⟨-, hdivided⟩ := hwindow.eq_of_lt (by rwa [Nat.zero_add])
  have hsame : (s.withOsc s.osc.resetTiming).SameRenderInputs v :=
    { build := hbuild
      phase := by
        rw [State.withOsc_build, hsource]
        exact hdivided
      offset := hticks ▸ Osc.ticks_keep Osc.tick_initialPhase k _
      level := hticks ▸ Osc.ticks_keep Osc.tick_level k _ }
  refine ⟨_, _, v, _, execWith_reset roms s, execWith_render roms sel _, hv, execWith_render roms sel v,
    congrArg (BitVec.ofInt 16) (hsame.renderSample_eq roms.sineRom (shapeOf sel)), hdivided, fun hone => ?firstTick⟩
  case firstTick =>
    rw [hticks, hone, Function.iterate_one, Osc.tick_phase]
    exact BitVec.zero_add _

/-- Settles O28: with the new divider the count is still inside a window, which closes after the ticks it lacks. -/
theorem raisedDividerStretchesTheWindow : Obligations.RaisedDividerStretchesTheWindow := by
  intro roms s d2 k hraised hk
  have hd : 1 ≤ d2.toNat := Nat.one_le_of_lt hraised
  obtain ⟨t, ht, -, hticks⟩ := runStream_ticks roms k _
  refine ⟨t, (runStream_cons_encode rfl (execWith_setdiv roms d2 _)).trans ht, ?_⟩
  rw [State.withOsc_osc, State.accept_osc, dividerOf_eq_self hd] at hticks
  have hinside : (s.osc.setDivider d2).countInWindow := hraised
  have hwindow : (s.osc.setDivider d2).DividedPhaseAfter (s.osc.dividerCount.toNat + k) t.osc :=
    hticks ▸ (Osc.DividedPhaseAfter.launch_inside_window hinside).ticks hd k
  split
  next hopen => exact hwindow.eq_of_lt (show s.osc.dividerCount.toNat + k < d2.toNat by omega)
  next hclosed =>
    have hlast : s.osc.dividerCount.toNat + k = d2.toNat := by omega
    rw [hlast] at hwindow
    exact hwindow.eq_of_window hd

/-- Settles O27: with the new divider the count already stands at the end of its window. -/
theorem loweredDividerMakesTheNextTickABoundary : Obligations.LoweredDividerMakesTheNextTickABoundary := by
  intro s d2 hd hlowered
  have hsetdiv := exec_setdiv d2 s
  rw [dividerOf_eq_self hd] at hsetdiv
  have hboundary := Osc.setDivider_atBoundary hlowered
  refine ⟨_, _, hsetdiv, exec_tick _, rfl, rfl, ?count, Osc.tick_divider _, ?phase⟩
  case count => exact (Osc.tick_dividerCount _).trans (if_pos hboundary)
  case phase =>
    rw [State.withOsc_osc, State.withOsc_osc, Osc.tick_dividedPhase, if_pos hboundary]
    exact BitVec.toNat_add _ _

/-- Settles O18: both orders end in the same registers. -/
theorem settersOfPitchAndDividerCommute : Obligations.SettersOfPitchAndDividerCommute := by
  intro s p d
  refine ⟨_, _, _, exec_setpitch p s, exec_setdiv d _, exec_setdiv d s, ?_⟩
  rw [exec_setpitch, State.withOsc_osc, State.withOsc_osc, Osc.setDivider_setPitch_comm]
  rfl

end Sys2Proof.Proofs
end
